-- ==== Sys2Proof/Word.lean ====
section
/-! DEFINITION. The word types of the SCF block: what the spec treats as bits (`00_scope.md` rules R9, R10). -/

namespace Sys2Proof

/-- A byte, plain or wire (`00_scope.md` rule R9). Bit 0 is its least significant bit (rule R10). -/
abbrev Byte := BitVec 8

/-- An operation word, 48 bits (`30_encoding.md` rule R65). -/
abbrev OpWord := BitVec 48

/-- A value of the result register or of the register read port, 40 bits (`10_state.md` rules R15, R34). -/
abbrev Word40 := BitVec 40

/-- A sum, a checksum or a length counter, 16 bits (`10_state.md` rules R26 to R28, R30). -/
abbrev Word16 := BitVec 16

end Sys2Proof
end

