-- ==== Sys2Proof/Syntax.lean ====
section
/-! DEFINITION. The operations of the SCF block, one constructor per row of `spec/opcode_table.json`
(`30_encoding.md` rule R73), each with the operands its format gives it (rules R66 to R72), and the shape of a row of
the opcode map. -/

namespace Sys2Proof

/-- An operation with its operands, as decoding leaves them: no operand is sign-extended, scaled or shifted
(`30_encoding.md` rule R74). -/
inductive Instr where
  /-- NOP (`40_system.md` rule R81). -/
  | nop
  /-- ERRACK (`40_system.md` rule R82). -/
  | errack
  /-- SETKEY `k`: load the key and rewrite both tables (`41_swizzle.md` rule R89). -/
  | setkey (k : Byte)
  /-- SWZ `b`: look the plain byte up in `FWD` (`41_swizzle.md` rule R90). -/
  | swz (b : Byte)
  /-- USWZ `c`: look the wire byte up in `INV` (`41_swizzle.md` rule R91). -/
  | uswz (c : Byte)
  /-- ENC14 `v` (`42_codec7.md` rule R100). -/
  | enc14 (v : BitVec 35)
  /-- ENC35 `v` (`42_codec7.md` rule R101). -/
  | enc35 (v : BitVec 35)
  /-- ENC32S `x`, a 32-bit two's-complement pattern (`42_codec7.md` rule R102). -/
  | enc32s (x : BitVec 32)
  /-- DEC14 `g0 g1` (`42_codec7.md` rule R103). -/
  | dec14 (g0 g1 : Byte)
  /-- DEC35 `g0 g1 g2 g3 g4` (`42_codec7.md` rule R104). -/
  | dec35 (g0 g1 g2 g3 g4 : Byte)
  /-- DEC32S `g0 g1 g2 g3 g4` (`42_codec7.md` rule R105). -/
  | dec32s (g0 g1 g2 g3 g4 : Byte)
  /-- RXOPEN `m`: 0 PLAIN, 1 UNFRAMED, 2 FRAMED, 3 reserved (`43_rx_framer.md` rule R119). -/
  | rxopen (m : BitVec 2)
  /-- RXB `b`: receive one byte (`43_rx_framer.md` rule R120). -/
  | rxb (b : Byte)
  /-- RXEND: the unit is over (`43_rx_framer.md` rule R125). -/
  | rxend
  /-- TXOPEN: start a transmit sum (`44_tx_packer.md` rule R135). -/
  | txopen
  /-- TXB `p`: swizzle and sum one plain byte (`44_tx_packer.md` rule R136). -/
  | txb (p : Byte)
  /-- TXCK: read the transmit checksum (`44_tx_packer.md` rule R137). -/
  | txck
  deriving DecidableEq, Repr

/-- Why a word spells no operation (`30_encoding.md` rule R75). Both make the step fault `IllegalOp`. -/
inductive Reject where
  /-- The `OP` field is none of the seventeen of rule R73. -/
  | unassignedOp (op : Byte)
  /-- The `OP` field is assigned and a must-be-zero bit of its format is set. -/
  | reservedBits (op : Byte)
  deriving DecidableEq, Repr

/-- The seven operand formats (`30_encoding.md` rules R66 to R72). -/
inductive Format where
  | z | b | m | v | s | g2 | g5
  deriving DecidableEq, Repr

/-- A row of the opcode map (`30_encoding.md` rule R73): the mask and the match value as the rule's table prints them, and
the instruction whose operands the row's format takes from a selected word. -/
structure OpRow where
  mnemonic : String
  format   : Format
  mask     : OpWord
  pattern  : OpWord
  build    : OpWord → Instr

end Sys2Proof
end

