-- ==== Sys2Proof/WellFormed.lean ====
section
/-! DEFINITION. Which instructions carry only operands that the spec does not reserve. Operand widths are in the types;
the one reserved operand value is RXOPEN's mode 3 (`30_encoding.md` rules R68, R75). An ill-formed instruction still has an
encoding and an effect (the fault `IllegalOp`, `43_rx_framer.md` rule R119): this check is about the operand, not about
whether a step runs. -/

namespace Sys2Proof

/-- No operand has a value the spec reserves: RXOPEN's mode is not 3 (`30_encoding.md` rule R68: "3 reserved"). -/
def Instr.wellFormed : Instr → Bool
  | .nop => true
  | .errack => true
  | .setkey _ => true
  | .swz _ => true
  | .uswz _ => true
  | .enc14 _ => true
  | .enc35 _ => true
  | .enc32s _ => true
  | .dec14 _ _ => true
  | .dec35 _ _ _ _ _ => true
  | .dec32s _ _ _ _ _ => true
  | .rxopen m => m != 3#2
  | .rxb _ => true
  | .rxend => true
  | .txopen => true
  | .txb _ => true
  | .txck => true

end Sys2Proof
end

