-- ==== Sys2Proof/Decode.lean ====
section
/-! DEFINITION. Decoding an operation word (`30_encoding.md` rules R65 to R75), and after it the encoder, written from the
same formats. A word is a 48-bit value and no byte order is involved (`20_memory.md` rule R45). -/

namespace Sys2Proof

/-! ## Fields (rules R65 to R72) -/

/-- `OP`, bits 47 to 40 (rule R65). -/
def opField (w : OpWord) : Byte := w.extractLsb' 40 8

/-- Format B: `ARG[7:0]` (rule R67). -/
def fieldB (w : OpWord) : Byte := w.extractLsb' 0 8

/-- Format M: `ARG[1:0]` (rule R68). -/
def fieldM (w : OpWord) : BitVec 2 := w.extractLsb' 0 2

/-- Format V: `ARG[34:0]` (rule R69). -/
def fieldV (w : OpWord) : BitVec 35 := w.extractLsb' 0 35

/-- Format S: `ARG[31:0]` (rule R70). -/
def fieldS (w : OpWord) : BitVec 32 := w.extractLsb' 0 32

/-- Byte `n` of `ARG` counted from its least significant byte, as formats G2 and G5 name them (rules R71, R72). -/
def fieldG (n : Nat) (w : OpWord) : Byte := w.extractLsb' (8 * n) 8

/-! ## The opcode map (rule R73) -/

/-- NOP and ERRACK. -/
def systemRows : List OpRow :=
  [⟨"NOP", .z, 0xFFFFFFFFFFFF#48, 0x000000000000#48, fun _ => .nop⟩,
   ⟨"ERRACK", .z, 0xFFFFFFFFFFFF#48, 0x010000000000#48, fun _ => .errack⟩]

/-- SETKEY, SWZ, USWZ. -/
def swizzleRows : List OpRow :=
  [⟨"SETKEY", .b, 0xFFFFFFFFFF00#48, 0x100000000000#48, fun w => .setkey (fieldB w)⟩,
   ⟨"SWZ", .b, 0xFFFFFFFFFF00#48, 0x110000000000#48, fun w => .swz (fieldB w)⟩,
   ⟨"USWZ", .b, 0xFFFFFFFFFF00#48, 0x120000000000#48, fun w => .uswz (fieldB w)⟩]

/-- ENC14, ENC35, ENC32S, DEC14, DEC35, DEC32S. -/
def codecRows : List OpRow :=
  [⟨"ENC14", .v, 0xFFF800000000#48, 0x200000000000#48, fun w => .enc14 (fieldV w)⟩,
   ⟨"ENC35", .v, 0xFFF800000000#48, 0x210000000000#48, fun w => .enc35 (fieldV w)⟩,
   ⟨"ENC32S", .s, 0xFFFF00000000#48, 0x220000000000#48, fun w => .enc32s (fieldS w)⟩,
   ⟨"DEC14", .g2, 0xFFFFFFFF0000#48, 0x280000000000#48, fun w => .dec14 (fieldG 1 w) (fieldG 0 w)⟩,
   ⟨"DEC35", .g5, 0xFF0000000000#48, 0x290000000000#48,
     fun w => .dec35 (fieldG 4 w) (fieldG 3 w) (fieldG 2 w) (fieldG 1 w) (fieldG 0 w)⟩,
   ⟨"DEC32S", .g5, 0xFF0000000000#48, 0x2A0000000000#48,
     fun w => .dec32s (fieldG 4 w) (fieldG 3 w) (fieldG 2 w) (fieldG 1 w) (fieldG 0 w)⟩]

/-- RXOPEN, RXB, RXEND. -/
def receiveRows : List OpRow :=
  [⟨"RXOPEN", .m, 0xFFFFFFFFFFFC#48, 0x300000000000#48, fun w => .rxopen (fieldM w)⟩,
   ⟨"RXB", .b, 0xFFFFFFFFFF00#48, 0x310000000000#48, fun w => .rxb (fieldB w)⟩,
   ⟨"RXEND", .z, 0xFFFFFFFFFFFF#48, 0x320000000000#48, fun _ => .rxend⟩]

/-- TXOPEN, TXB, TXCK. -/
def transmitRows : List OpRow :=
  [⟨"TXOPEN", .z, 0xFFFFFFFFFFFF#48, 0x380000000000#48, fun _ => .txopen⟩,
   ⟨"TXB", .b, 0xFFFFFFFFFF00#48, 0x390000000000#48, fun w => .txb (fieldB w)⟩,
   ⟨"TXCK", .z, 0xFFFFFFFFFFFF#48, 0x3A0000000000#48, fun _ => .txck⟩]

/-- The opcode map, seventeen rows in the order of rule R73. -/
def opcodeMap : List OpRow := systemRows ++ swizzleRows ++ codecRows ++ receiveRows ++ transmitRows

/-- A word selects a row when `(w AND mask) = match` (rule R73). -/
def OpRow.selects (r : OpRow) (w : OpWord) : Bool := w &&& r.mask == r.pattern

/-! ## Decoding (rules R74, R75) -/

/-- Why a word that selects no row is illegal (rule R75). -/
def rejection (w : OpWord) : Reject :=
  if opcodeMap.any (fun r => opField r.pattern == opField w) then .reservedBits (opField w)
  else .unassignedOp (opField w)

/-- Find the row the word selects and take its operands; a word that selects none spells no operation (rule R74). -/
def decode (w : OpWord) : Except Reject Instr :=
  match opcodeMap.find? (fun r => r.selects w) with
  | some r => .ok (r.build w)
  | none => .error (rejection w)

/-! ## Encoding (rules R65 to R73) -/

/-- Format Z: a word with no operand (rule R66). -/
def wordZ (op : Byte) : OpWord := op ++ 0#40

/-- Format B: a word with one byte (rule R67). -/
def wordB (op b : Byte) : OpWord := op ++ 0#32 ++ b

/-- Format M: a word with a mode (rule R68). -/
def wordM (op : Byte) (m : BitVec 2) : OpWord := op ++ 0#38 ++ m

/-- Format V: a word with a 35-bit value (rule R69). -/
def wordV (op : Byte) (v : BitVec 35) : OpWord := op ++ 0#5 ++ v

/-- Format S: a word with a 32-bit pattern (rule R70). -/
def wordS (op : Byte) (x : BitVec 32) : OpWord := op ++ 0#8 ++ x

/-- Format G2: a word with two groups, first wire byte first (rule R71). -/
def wordG2 (op g0 g1 : Byte) : OpWord := op ++ 0#24 ++ g0 ++ g1

/-- Format G5: a word with five groups, first wire byte first (rule R72). -/
def wordG5 (op g0 g1 g2 g3 g4 : Byte) : OpWord := op ++ g0 ++ g1 ++ g2 ++ g3 ++ g4

/-- The word of an instruction: `{OP, ARG}` by the formats of rules R66 to R72 and the `OP` values of rule R73. -/
def encode : Instr → OpWord
  | .nop => wordZ 0x00#8
  | .errack => wordZ 0x01#8
  | .setkey k => wordB 0x10#8 k
  | .swz b => wordB 0x11#8 b
  | .uswz c => wordB 0x12#8 c
  | .enc14 v => wordV 0x20#8 v
  | .enc35 v => wordV 0x21#8 v
  | .enc32s x => wordS 0x22#8 x
  | .dec14 g0 g1 => wordG2 0x28#8 g0 g1
  | .dec35 g0 g1 g2 g3 g4 => wordG5 0x29#8 g0 g1 g2 g3 g4
  | .dec32s g0 g1 g2 g3 g4 => wordG5 0x2A#8 g0 g1 g2 g3 g4
  | .rxopen m => wordM 0x30#8 m
  | .rxb b => wordB 0x31#8 b
  | .rxend => wordZ 0x32#8
  | .txopen => wordZ 0x38#8
  | .txb p => wordB 0x39#8 p
  | .txck => wordZ 0x3A#8

/-! ## The host's question about a row of the table -/

/-- The operation word whose low `nbits` bits are those of `w` and whose other bits are 0, bit 0 the least significant.
Log 12. -/
def tableWord (nbits w : Nat) : OpWord := BitVec.ofNat 48 (w % 2 ^ nbits)

/-- What `decode` reads from a word of the table. -/
def decodeTableWord (nbits w : Nat) : Option Instr := (decode (tableWord nbits w)).toOption

end Sys2Proof
end

