-- ==== Sys2Proof/Config.lean ====
section
/-! DEFINITION. What is fixed for one machine and what the spec leaves free: the two OPEN parameters of `00_scope.md`
rule R8 and the free values of `93_implementation_defined.md` items U1 and U20. Nothing here has a value that Lean can
compute, so a statement about any of it holds for every value. -/

namespace Sys2Proof

/-- The low seven bits of the ACK token. `00_scope.md` rule R8 leaves them OPEN; bit 7 is 1 by its constraint. Log 6. -/
opaque Config.ackLow : BitVec 7

/-- How far, less one and mod 128, the NAK token's low seven bits lie above the ACK token's: any of the 127 distances
that keep the two tokens distinct (`00_scope.md` rule R8). Log 6. -/
opaque Config.nakGap : Fin 127

/-- `ACK_TOKEN`, OPEN, at least 0x80 (`00_scope.md` rule R8). -/
def Config.ackToken : Byte := 1#1 ++ Config.ackLow

/-- `NAK_TOKEN`, OPEN, at least 0x80 and other than `ACK_TOKEN` (`00_scope.md` rule R8). -/
def Config.nakToken : Byte := 1#1 ++ (Config.ackLow + BitVec.ofNat 7 (Config.nakGap.val + 1))

/-- The byte a host read of `MAGIC` draws while `KEYV = 0` (`10_state.md` rule R17: "a read is a draw, never a fixed
number"). A free value, indexed by `State.draws`. Log 3. -/
opaque Config.freeMagic : Nat → Byte

/-- What an entry of `FWD` that nothing has written reads as, by draw index and entry (`10_state.md` rule R19: reset
content unspecified; item U1: any value). A free value. Log 5. -/
opaque Config.freeFwd : Nat → Byte → Byte

/-- What an entry of `INV` that nothing has written reads as (`10_state.md` rule R20, item U1). A free value. Log 5. -/
opaque Config.freeInv : Nat → Byte → Byte

end Sys2Proof
end

