-- ==== Sys2Proof/Machine/Operands.lean ====
section
/-! DEFINITION. The pure functions on bytes and fields: the cipher's two byte functions (`41_swizzle.md`), the 7-bit group
codec (`42_codec7.md`), the extensions and packing of `00_scope.md` rule R11 and `20_memory.md` rule R44. -/

namespace Sys2Proof.Machine

/-! ## The cipher (`41_swizzle.md` rules R85, R86) -/

/-- Bit 0 and bit 7 exchanged: `b[0], b[6:1], b[7]` concatenated (`00_scope.md` rule R11). -/
def swap07 (b : Byte) : Byte := b.extractLsb' 0 1 ++ b.extractLsb' 1 6 ++ b.extractLsb' 7 1

/-- `S(b, m)`: exchange, XOR with the key, increment mod 256 (rule R85). -/
def swizzle (b m : Byte) : Byte := (swap07 b ^^^ m) + 1

/-- `U(c, m)`: decrement mod 256, XOR with the key, exchange (rule R86). -/
def unswizzle (c m : Byte) : Byte := swap07 ((c - 1) ^^^ m)

/-! ## Results (`10_state.md` rule R15, `20_memory.md` rule R44) -/

/-- `zext_40` (`00_scope.md` rule R11). -/
def zext40 {n : Nat} (v : BitVec n) : Word40 := v.setWidth 40

/-- `sext_40` (`00_scope.md` rule R11). -/
def sext40 (x : BitVec 32) : Word40 := x.signExtend 40

/-- The number a byte string stands for in `ARG` and `RES`: first byte most significant (rule R44). -/
def packBytes : List Byte → Nat
  | [] => 0
  | b :: bs => b.toNat * 2 ^ (8 * bs.length) + packBytes bs

/-- Byte `n` of a result counted from its least significant byte. -/
def resByte (n : Nat) (r : Word40) : Byte := r.extractLsb' (8 * n) 8

/-- The byte string a result of length `n` stands for, first byte first (rule R15). -/
def unpackBytes : Nat → Word40 → List Byte
  | 0, _ => []
  | n + 1, r => resByte n r :: unpackBytes n r

/-! ## The group functions (`42_codec7.md` rules R97, R98) -/

/-- The groups of a value, most significant first; `enc` without its domain check. -/
def groupsOf : Nat → Nat → List Byte
  | 0, _ => []
  | n + 1, v => BitVec.ofNat 8 (v / 2 ^ (7 * n) % 128) :: groupsOf n v

/-- `enc(v, n)`: no value outside `v < 2^(7n)` (rule R97; log 13). -/
def enc (v n : Nat) : Option (List Byte) := if v < 2 ^ (7 * n) then some (groupsOf n v) else none

/-- The number a list of groups stands for, taking bits 6 to 0 of each; `dec` without its domain check. -/
def valueOf : List Byte → Nat
  | [] => 0
  | g :: gs => (g.extractLsb' 0 7).toNat * 2 ^ (7 * gs.length) + valueOf gs

/-- Bit 7 of a group byte (`30_encoding.md` rule R58). -/
def topBit (g : Byte) : Bool := g.getLsbD 7

/-- `dec(g)`: no value where a byte has bit 7 set (rule R98; log 13). -/
def dec (gs : List Byte) : Option Nat := if gs.any topBit then none else some (valueOf gs)

/-! ## The two instantiated sizes (`30_encoding.md` rules R59, R60) -/

/-- A group: bit 7 is 0, bits 6 to 0 carry the field (`30_encoding.md` rule R58). -/
def group (d : BitVec 7) : Byte := 0#1 ++ d

/-- The two groups of `v[13:0]` as rule R100 lays them out. -/
def enc14Bytes (v : BitVec 35) : BitVec 16 :=
  group (v.extractLsb' 7 7) ++ group (v.extractLsb' 0 7)

/-- The five groups of `v` as rule R101 lays them out. -/
def enc35Bytes (v : BitVec 35) : Word40 :=
  group (v.extractLsb' 28 7) ++ group (v.extractLsb' 21 7) ++ group (v.extractLsb' 14 7)
    ++ group (v.extractLsb' 7 7) ++ group (v.extractLsb' 0 7)

/-- `sext_35` (rule R102). -/
def sext35 (x : BitVec 32) : BitVec 35 := x.signExtend 35

/-- The 14-bit number of two groups (rule R103). -/
def dec14Value (g0 g1 : Byte) : BitVec 14 := g0.extractLsb' 0 7 ++ g1.extractLsb' 0 7

/-- The 35-bit number of five groups (rules R104, R105). -/
def dec35Value (g0 g1 g2 g3 g4 : Byte) : BitVec 35 :=
  g0.extractLsb' 0 7 ++ g1.extractLsb' 0 7 ++ g2.extractLsb' 0 7 ++ g3.extractLsb' 0 7 ++ g4.extractLsb' 0 7

/-- The low 32 bits of a field, the signed reading's `x` (rule R105). -/
def low32 (v : BitVec 35) : BitVec 32 := v.extractLsb' 0 32

/-- `ENC14` takes values up to 16383 (rule R100). -/
def outOfRange14 (v : BitVec 35) : Bool := 16383#35 < v

end Sys2Proof.Machine
end

