-- ==== Sys2Proof/Machine/State.lean ====
section
/-! DEFINITION. The state of the SCF block (`10_state.md`), the host's actions that drive it (`70_reset_and_hazards.md` rule
R182), and the reasons a run could stop, of which the block has none. -/

namespace Sys2Proof.Machine

/-- A table's listed entries, by index, in one canonical form (`Memory.wf`). An entry that is not listed holds no value
(`70_reset_and_hazards.md` rules R165, R185). -/
abbrev Memory := List Host.Cell

/-- The canonical form: indices strictly rising and all within the table's 256 entries (`20_memory.md` rule R40). -/
abbrev Memory.wf (m : Memory) : Prop :=
  m.Pairwise (fun c d => c.1 < d.1) ∧ ∀ c ∈ m, c.1 < 256

/-- `RXM`, the receive mode (`10_state.md` rule R23): 0, 1, 2; value 3 is never held. Log 9. -/
inductive RxMode where
  | plain | unframed | framed
  deriving DecidableEq, Repr

/-- `RXPH`, the receive phase (`10_state.md` rule R25): 0, 1, 2, 3 in this order. -/
inductive RxPhase where
  | closed | hdr0 | hdr1 | body
  deriving DecidableEq, Repr

/-- `VERDICT` (`10_state.md` rule R29): NONE, MATCH, MISMATCH, SHORT; 0, 1, 2, 3 in this order. -/
inductive Verdict where
  | noVerdict | matched | mismatch | short
  deriving DecidableEq, Repr

/-- The fault codes a step can end with (`60_exceptions.md` rule R144). They are values of `LASTERR` and `ERR`: the machine goes
on after each (rule R143). -/
inductive FaultCode where
  /-- 1: a word that spells no operation, or RXOPEN mode 3 (rule R147). -/
  | illegalOp
  /-- 2: a table is needed and no key is loaded (rule R148). -/
  | noKey
  /-- 3: RXB or RXEND with no unit open (rule R149). -/
  | notOpen
  /-- 4: ENC14 of a value above 16383 (rule R150). -/
  | range
  /-- 5: a group byte whose bit 7 is 1 (rule R151). -/
  | badGroup
  deriving DecidableEq, Repr

/-- What the host can do to the block, and nothing else (`10_state.md` rule R14, `70_reset_and_hazards.md` rule R182). -/
inductive HostAction where
  /-- Issue one operation word. -/
  | word (w : OpWord)
  /-- Read the register with this number through the read port (`10_state.md` rule R34). -/
  | readReg (n : BitVec 4)
  /-- Assert the reset input (rule R164). -/
  | reset
  deriving DecidableEq, Repr

/-- The whole state. The registers carry the spec's names in lower case; the last three fields are the model's own. -/
structure State where
  /-- `MAGIC`, the key (rule R17). -/
  magic   : Byte
  /-- `KEYV`, key valid (rule R18). -/
  keyv    : Bool
  /-- `FWD`, the forward table (rule R19). -/
  fwd     : Memory
  /-- `INV`, the inverse table (rule R20). -/
  inv     : Memory
  /-- `RES`, the result register (rule R15). -/
  res     : Word40
  /-- `RLEN`, how many bytes of `RES` are meaningful as a byte string (rule R15). -/
  rlen    : BitVec 3
  /-- `INCMD`, a run is open (rule R22). -/
  incmd   : Bool
  /-- `SOC`, start of command (rule R22). -/
  soc     : Bool
  /-- `ORPH`, orphan (rule R22). -/
  orph    : Bool
  /-- `ORPHS`, orphan seen in this unit (rule R22). -/
  orphs   : Bool
  /-- `NC`, non-canonical 35-bit field (rule R22). -/
  nc      : Bool
  /-- `RXM`, the mode of the open or last unit (rule R23). -/
  rxm     : RxMode
  /-- `RXPH`, the receive phase (rule R25). -/
  rxph    : RxPhase
  /-- `CKEXP`, the checksum a FRAMED unit announced (rule R26). -/
  ckexp   : Word16
  /-- `RXSUM`, the sum of the plain body bytes (rule R27). -/
  rxsum   : Word16
  /-- `CLEN`, the length of the open run, saturating (rule R28). -/
  clen    : Word16
  /-- `PREVLEN`, the length of the run the last boundary closed (rule R28). -/
  prevlen : Word16
  /-- `VERDICT`, the result of the last RXEND (rule R29). -/
  verdict : Verdict
  /-- `TXSUM`, the sum of the plain bytes given to TXB (rule R30). -/
  txsum   : Word16
  /-- `LASTERR`, the outcome code of the most recent step (rule R31). -/
  lasterr : BitVec 4
  /-- `ERR`, the first fault since reset or ERRACK (rule R32). -/
  err     : BitVec 4
  /-- The model's own: what the host will do, first action first (rules R36, R183). Log 1. -/
  input   : List HostAction
  /-- The model's own: what the read port returned to the host's latest register read. Log 2. -/
  readOut : Option Word40
  /-- The model's own: which free value the next draw takes. Log 3. -/
  draws   : Nat
  deriving DecidableEq, Repr

/-- The state after reset (`10_state.md` rule R39). Log 4 for `magic`, log 5 for the tables, logs 1 to 3 for the model's own
fields. -/
def State.reset : State where
  magic   := 0
  keyv    := false
  fwd     := []
  inv     := []
  res     := 0
  rlen    := 0
  incmd   := false
  soc     := false
  orph    := false
  orphs   := false
  nc      := false
  rxm     := .plain
  rxph    := .closed
  ckexp   := 0
  rxsum   := 0
  clen    := 0
  prevlen := 0
  verdict := .noVerdict
  txsum   := 0
  lasterr := 0
  err     := 0
  input   := []
  readOut := none
  draws   := 0

/-- What could stop the machine: nothing. No state of the block is terminal and every fault of `60_exceptions.md` leaves it
ready for the next word (rules R143, R184), so those faults are next states (`FaultCode`) and this type has no constructor:
no step raises one. Safe: there is no stop to reason from. Log 7. -/
inductive Fault where
  deriving DecidableEq, Repr

/-- Why the model would refuse an instruction. -/
inductive Refusal where
  /-- Raised only by an arm of `exec` whose instruction has no meaning yet; no arm raises it. Safe: the model would stop
  where the hardware goes on. -/
  | notModelled (mnemonic : String)
  deriving DecidableEq, Repr

/-- How a step answers. -/
abbrev Answer := Host.Outcome State Fault Refusal

end Sys2Proof.Machine
end

