-- ==== Sys2Proof/Machine/Flags.lean ====
section
/-! DEFINITION. What decides each flag and counter (`10_state.md` rules R22, R28; `43_rx_framer.md` rule R123;
`42_codec7.md` rule R105), the codes of the small fields, and the `STATUS` view (rule R33). -/

namespace Sys2Proof.Machine

/-- A plain byte of 0x80 or more starts a run (`30_encoding.md` rule R55). -/
def isStart (p : Byte) : Bool := 0x80#8 ≤ p

/-- The class of a body byte (`10_state.md` rule R37). -/
inductive TokenClass where
  | start | cont | orphan
  deriving DecidableEq, Repr

/-- The class of a plain byte, given whether a run is open (`43_rx_framer.md` rule R123). -/
def classify (incmd : Bool) (p : Byte) : TokenClass :=
  if isStart p then .start else if incmd then .cont else .orphan

/-- `sat16` (`00_scope.md` rule R11). -/
def sat16 (n : Nat) : Word16 := if n ≤ 0xFFFF then BitVec.ofNat 16 n else 0xFFFF#16

/-- `(sum + p) mod 65536` (`43_rx_framer.md` rule R122, `44_tx_packer.md` rule R136). -/
def addByte (sum : Word16) (p : Byte) : Word16 := sum + p.setWidth 16

/-- `NC`: bits 34 to 32 of a field are not all copies of bit 31 (`42_codec7.md` rule R105). -/
def nonCanonical (v : BitVec 35) : Bool :=
  v.extractLsb' 32 3 != v.extractLsb' 31 1 ++ v.extractLsb' 31 1 ++ v.extractLsb' 31 1

/-- The mode a two-bit operand names; 3 is reserved (`30_encoding.md` rule R68). -/
def RxMode.ofBits (m : BitVec 2) : Option RxMode :=
  if m = 0#2 then some .plain else if m = 1#2 then some .unframed else if m = 2#2 then some .framed else none

/-- The value `RXM` reads as (`10_state.md` rule R23). -/
def RxMode.bits : RxMode → BitVec 2
  | .plain => 0#2
  | .unframed => 1#2
  | .framed => 2#2

/-- The value `RXPH` reads as (`10_state.md` rule R25). -/
def RxPhase.bits : RxPhase → BitVec 2
  | .closed => 0#2
  | .hdr0 => 1#2
  | .hdr1 => 2#2
  | .body => 3#2

/-- The value `VERDICT` reads as (`10_state.md` rule R29). -/
def Verdict.bits : Verdict → BitVec 2
  | .noVerdict => 0#2
  | .matched => 1#2
  | .mismatch => 2#2
  | .short => 3#2

/-- The code of a fault (`60_exceptions.md` rule R144). -/
def FaultCode.code : FaultCode → BitVec 4
  | .illegalOp => 1#4
  | .noKey => 2#4
  | .notOpen => 3#4
  | .range => 4#4
  | .badGroup => 5#4

/-- `STATUS` (`10_state.md` rule R33): bits 15 to 12 are zero, then `RXPH`, `RXM`, `VERDICT`, `NC`, `ORPHS`, `ORPH`, `SOC`,
`INCMD`, `KEYV` down to bit 0. -/
def State.status (s : State) : BitVec 16 :=
  0#4 ++ s.rxph.bits ++ s.rxm.bits ++ s.verdict.bits ++ BitVec.ofBool s.nc ++ BitVec.ofBool s.orphs
    ++ BitVec.ofBool s.orph ++ BitVec.ofBool s.soc ++ BitVec.ofBool s.incmd ++ BitVec.ofBool s.keyv

end Sys2Proof.Machine
end

