-- ==== Sys2Proof/Machine/Ops.lean ====
section
/-! DEFINITION. The named operations the meanings share: table reads and writes (`00_scope.md` rule R11), writing a result
(`10_state.md` rule R15), taking a fault and acknowledging it (`60_exceptions.md` rule R145, `40_system.md` rule R82), the
receive and transmit registers' updates (`43_rx_framer.md`, `44_tx_packer.md`), and the host's register read and reset
(`10_state.md` rule R34, `70_reset_and_hazards.md` rule R164). -/

namespace Sys2Proof.Machine

/-! ## Tables (`20_memory.md` rules R40, R41) -/

/-- The listed value of an entry, if any. -/
def Memory.read (m : Memory) (a : Nat) : Option Byte := List.lookup a m

/-- Write one entry, keeping the canonical form (`MemWrite` of `00_scope.md` rule R11). -/
def Memory.write (m : Memory) (a : Nat) (v : Byte) : Memory :=
  match m with
  | [] => [(a, v)]
  | c :: rest =>
    if a < c.1 then (a, v) :: c :: rest
    else if a = c.1 then (a, v) :: rest
    else c :: Memory.write rest a v

/-- Write every entry below `n`. -/
def Memory.writeBelow (m : Memory) (f : Byte → Byte) : Nat → Memory
  | 0 => m
  | n + 1 => Memory.writeBelow (m.write n (f (BitVec.ofNat 8 n))) f n

/-- Write all 256 entries, as SETKEY does (`41_swizzle.md` rule R89: "for every i in 0..255"). The entries are distinct, so the
order of the writes, none of which is observable (`20_memory.md` rule R41), does not matter. Irreducible, so that no tactic
unfolds 256 writes: proofs cite `Memory.read_rewrite`. -/
@[irreducible] def Memory.rewrite (m : Memory) (f : Byte → Byte) : Memory := m.writeBelow f 256

/-- `MemRead(FWD, i, 1)`. An entry nothing has written holds no value and reads as a free value (log 5). -/
def State.fwdAt (s : State) (i : Byte) : Byte := (s.fwd.read i.toNat).getD (Config.freeFwd s.draws i)

/-- `MemRead(INV, i, 1)`. An entry nothing has written holds no value and reads as a free value (log 5). -/
def State.invAt (s : State) (i : Byte) : Byte := (s.inv.read i.toNat).getD (Config.freeInv s.draws i)

/-- Load a key: `MAGIC`, both tables whole, `KEYV` (`41_swizzle.md` rule R89). -/
def State.loadKey (s : State) (k : Byte) : State :=
  { s with magic := k
           fwd   := s.fwd.rewrite (fun b => swizzle b k)
           inv   := s.inv.rewrite (fun c => unswizzle c k)
           keyv  := true }

/-! ## How a step ends (`00_scope.md` rule R12, `60_exceptions.md`) -/

/-- A step that ends ok without a result: `LASTERR <- 0` (`40_system.md` rule R80). -/
def State.endOk (s : State) : State := { s with lasterr := 0 }

/-- A step that ends ok with a result: `RES` whole, `RLEN`, `LASTERR <- 0` (`10_state.md` rule R15). -/
def State.result (s : State) (r : Word40) (n : BitVec 3) : State := { s with res := r, rlen := n, lasterr := 0 }

/-- Taking a fault: `LASTERR <- code`, `ERR <- code` if it was 0, nothing else (`60_exceptions.md` rule R145). -/
def State.takeFault (s : State) (c : FaultCode) : State :=
  { s with lasterr := c.code, err := if s.err = 0 then c.code else s.err }

/-- Acknowledging the first fault (`40_system.md` rule R82, `60_exceptions.md` rule R156). -/
def State.ackFault (s : State) : State := { s with err := 0, lasterr := 0 }

/-- One check of an operation's rule: the fault if it holds, else the effect (`40_system.md` rule R80). -/
def State.check (s : State) (bad : Bool) (c : FaultCode) (t : State) : Answer :=
  .next (if bad then s.takeFault c else t)

/-! ## Receive path (`43_rx_framer.md`) -/

/-- Open a unit in a mode (rule R119). -/
def State.openUnit (s : State) (m : RxMode) : State :=
  { s with rxm     := m
           rxph    := if m = .framed then .hdr0 else .body
           ckexp   := 0
           rxsum   := 0
           incmd   := false
           clen    := 0
           prevlen := 0
           soc     := false
           orph    := false
           orphs   := false
           verdict := .noVerdict }

/-- The high checksum byte, taken as it arrives (rule R121). -/
def State.headerHigh (s : State) (b : Byte) : State :=
  { s with ckexp := b ++ s.ckexp.extractLsb' 0 8, rxph := .hdr1 }

/-- The low checksum byte, taken as it arrives (rule R121). -/
def State.headerLow (s : State) (b : Byte) : State :=
  { s with ckexp := s.ckexp.extractLsb' 8 8 ++ b, rxph := .body }

/-- The plain byte of a received body byte (rule R122). -/
def State.plainByte (s : State) (b : Byte) : Byte := if s.rxm = .plain then b else s.invAt b

/-- Sum a plain body byte (rule R122). -/
def State.sumBody (s : State) (p : Byte) : State := { s with rxsum := addByte s.rxsum p }

/-- START: the open run is closed and a new one begins (rule R123). -/
def State.startRun (s : State) : State :=
  { s with prevlen := s.clen, clen := 1, incmd := true, soc := true, orph := false }

/-- CONT: the byte joins the open run (rule R123). -/
def State.contRun (s : State) : State :=
  { s with clen := sat16 (s.clen.toNat + 1), soc := false, orph := false }

/-- ORPHAN: no run is open and the byte cannot start one (rule R123). -/
def State.orphanByte (s : State) : State := { s with soc := false, orph := true, orphs := true }

/-- The registers a body byte's class moves (rule R123). -/
def State.classByte (s : State) (p : Byte) : State :=
  match classify s.incmd p with
  | .start => s.startRun
  | .cont => s.contRun
  | .orphan => s.orphanByte

/-- A unit that ended inside its header (rule R126). -/
def State.endShort (s : State) : State := { s with verdict := .short, rxph := .closed }

/-- Close the run and the unit, with the verdict of its mode (rules R127, R128). -/
def State.closeUnit (s : State) (v : Verdict) : State :=
  { s with prevlen := s.clen
           clen    := 0
           incmd   := false
           soc     := false
           orph    := false
           rxph    := .closed
           verdict := v }

/-- The verdict on a frame (rule R128). -/
def State.frameVerdict (s : State) : Verdict := if s.rxsum = s.ckexp then .matched else .mismatch

/-- The token a receiver owes for a frame, plain (rule R129). -/
def State.replyToken (s : State) : Byte := if s.rxsum = s.ckexp then Config.ackToken else Config.nakToken

/-! ## Transmit path (`44_tx_packer.md`) -/

/-- Start a transmit sum (rule R135). -/
def State.clearTx (s : State) : State := { s with txsum := 0 }

/-- Sum a plain byte (rule R136). -/
def State.sumTx (s : State) (p : Byte) : State := { s with txsum := addByte s.txsum p }

/-- Write the canonical-field flag (`42_codec7.md` rule R105). -/
def State.setNc (s : State) (b : Bool) : State := { s with nc := b }

/-! ## The host's other actions -/

/-- What the read port returns for a register number, zero-extended to 40 bits (`10_state.md` rule R34). `MAGIC` while `KEYV = 0`
is a free value (rule R17; log 3). -/
def State.readPort (s : State) (n : BitVec 4) : Word40 :=
  if n = 0 then zext40 s.status
  else if n = 1 then zext40 s.err
  else if n = 2 then zext40 s.lasterr
  else if n = 3 then zext40 (if s.keyv then s.magic else Config.freeMagic s.draws)
  else if n = 4 then s.res
  else if n = 5 then zext40 s.rlen
  else if n = 6 then zext40 s.ckexp
  else if n = 7 then zext40 s.rxsum
  else if n = 8 then zext40 s.txsum
  else if n = 9 then zext40 s.clen
  else if n = 10 then zext40 s.prevlen
  else 0

/-- A host register read: no register changes (`10_state.md` rule R35). The port's answer is kept for the host, and a read of an
unspecified `MAGIC` uses up one draw (logs 2, 3). -/
def State.hostRead (s : State) (n : BitVec 4) : State :=
  { s with readOut := some (s.readPort n), draws := if n = 3 ∧ s.keyv = false then s.draws + 1 else s.draws }

/-- Reset: every register to its reset value whatever it held (`70_reset_and_hazards.md` rule R164). The host's coming actions
and what it has read are not the block's; the free values after it are new ones (rule R165; log 11). -/
def State.hostReset (s : State) : State :=
  { State.reset with input := s.input, readOut := s.readOut, draws := s.draws + 1 }

end Sys2Proof.Machine
end

