-- ==== Sys2Proof/Machine/Codec7.lean ====
section
/-! DEFINITION. The meanings of ENC14, ENC35, ENC32S, DEC14, DEC35 and DEC32S (`42_codec7.md`). -/

namespace Sys2Proof.Machine

/-- ENC14 (`42_codec7.md` rule R100). -/
def execEnc14 (v : BitVec 35) (s : State) : Answer :=
  s.check (outOfRange14 v) .range (s.result (zext40 (enc14Bytes v)) 2)

/-- ENC35 (`42_codec7.md` rule R101). -/
def execEnc35 (v : BitVec 35) (s : State) : Answer := .next (s.result (enc35Bytes v) 5)

/-- ENC32S (`42_codec7.md` rule R102). -/
def execEnc32s (x : BitVec 32) (s : State) : Answer := .next (s.result (enc35Bytes (sext35 x)) 5)

/-- DEC14 (`42_codec7.md` rule R103). -/
def execDec14 (g0 g1 : Byte) (s : State) : Answer :=
  s.check ([g0, g1].any topBit) .badGroup (s.result (zext40 (dec14Value g0 g1)) 0)

/-- DEC35 (`42_codec7.md` rule R104). -/
def execDec35 (g0 g1 g2 g3 g4 : Byte) (s : State) : Answer :=
  s.check ([g0, g1, g2, g3, g4].any topBit) .badGroup (s.result (zext40 (dec35Value g0 g1 g2 g3 g4)) 0)

/-- DEC32S (`42_codec7.md` rule R105). -/
def execDec32s (g0 g1 g2 g3 g4 : Byte) (s : State) : Answer :=
  s.check ([g0, g1, g2, g3, g4].any topBit) .badGroup
    ((s.setNc (nonCanonical (dec35Value g0 g1 g2 g3 g4))).result
      (sext40 (low32 (dec35Value g0 g1 g2 g3 g4))) 0)

end Sys2Proof.Machine
end

