-- ==== Sys2Proof/Machine/RxFramer.lean ====
section
/-! DEFINITION. The meanings of RXOPEN, RXB and RXEND (`43_rx_framer.md`). -/

namespace Sys2Proof.Machine

/-- RXOPEN (`43_rx_framer.md` rule R119): the reserved mode first, then the key. -/
def execRxopen (m : BitVec 2) (s : State) : Answer :=
  match RxMode.ofBits m with
  | none => .next (s.takeFault .illegalOp)
  | some mode => s.check (mode != .plain && !s.keyv) .noKey ((s.openUnit mode).result 0 0)

/-- RXB (`43_rx_framer.md` rules R120 to R123). -/
def execRxb (b : Byte) (s : State) : Answer :=
  match s.rxph with
  | .closed => .next (s.takeFault .notOpen)
  | .hdr0 => .next ((s.headerHigh b).result 0 0)
  | .hdr1 => .next ((s.headerLow b).result 0 0)
  | .body => .next (((s.sumBody (s.plainByte b)).classByte (s.plainByte b)).result (zext40 (s.plainByte b)) 1)

/-- RXEND (`43_rx_framer.md` rules R125 to R129). -/
def execRxend (s : State) : Answer :=
  match s.rxph with
  | .closed => .next (s.takeFault .notOpen)
  | .hdr0 => .next (s.endShort.result 0 0)
  | .hdr1 => .next (s.endShort.result 0 0)
  | .body =>
    match s.rxm with
    | .framed => .next ((s.closeUnit s.frameVerdict).result (zext40 (s.fwdAt s.replyToken)) 1)
    | .plain => .next ((s.closeUnit .noVerdict).result 0 0)
    | .unframed => .next ((s.closeUnit .noVerdict).result 0 0)

end Sys2Proof.Machine
end

