-- ==== Sys2Proof/Machine/Swizzle.lean ====
section
/-! DEFINITION. The meanings of SETKEY, SWZ and USWZ (`41_swizzle.md`). -/

namespace Sys2Proof.Machine

/-- SETKEY (`41_swizzle.md` rule R89). -/
def execSetkey (k : Byte) (s : State) : Answer := .next ((s.loadKey k).result 0 0)

/-- SWZ (`41_swizzle.md` rule R90). -/
def execSwz (b : Byte) (s : State) : Answer :=
  s.check (!s.keyv) .noKey (s.result (zext40 (s.fwdAt b)) 1)

/-- USWZ (`41_swizzle.md` rule R91). -/
def execUswz (c : Byte) (s : State) : Answer :=
  s.check (!s.keyv) .noKey (s.result (zext40 (s.invAt c)) 1)

end Sys2Proof.Machine
end

