-- ==== Sys2Proof/Machine/System.lean ====
section
/-! DEFINITION. The meanings of NOP and ERRACK (`40_system.md`). -/

namespace Sys2Proof.Machine

/-- NOP (`40_system.md` rule R81): only `LASTERR` is written. -/
def execNop (s : State) : Answer := .next s.endOk

/-- ERRACK (`40_system.md` rule R82): `ERR` and `LASTERR` are cleared. -/
def execErrack (s : State) : Answer := .next s.ackFault

end Sys2Proof.Machine
end

