-- ==== Sys2Proof/Machine/TxPacker.lean ====
section
/-! DEFINITION. The meanings of TXOPEN, TXB and TXCK (`44_tx_packer.md`). -/

namespace Sys2Proof.Machine

/-- TXOPEN (`44_tx_packer.md` rule R135). -/
def execTxopen (s : State) : Answer := .next (s.clearTx.result 0 0)

/-- TXB (`44_tx_packer.md` rule R136): the wire byte is returned, the plain byte is summed. -/
def execTxb (p : Byte) (s : State) : Answer :=
  s.check (!s.keyv) .noKey ((s.sumTx p).result (zext40 (s.fwdAt p)) 1)

/-- TXCK (`44_tx_packer.md` rule R137). -/
def execTxck (s : State) : Answer := .next (s.result (zext40 s.txsum) 2)

end Sys2Proof.Machine
end

