-- ==== Sys2Proof/Machine/Dispatch.lean ====
section
/-! DEFINITION. The one match from an instruction to its meaning. -/

namespace Sys2Proof.Machine

def exec (i : Instr) (s : State) : Host.Outcome State Fault Refusal :=
  match i with
  | .nop => Sys2Proof.Machine.execNop s
  | .errack => Sys2Proof.Machine.execErrack s
  | .setkey k => Sys2Proof.Machine.execSetkey k s
  | .swz b => Sys2Proof.Machine.execSwz b s
  | .uswz c => Sys2Proof.Machine.execUswz c s
  | .enc14 v => Sys2Proof.Machine.execEnc14 v s
  | .enc35 v => Sys2Proof.Machine.execEnc35 v s
  | .enc32s x => Sys2Proof.Machine.execEnc32s x s
  | .dec14 g0 g1 => Sys2Proof.Machine.execDec14 g0 g1 s
  | .dec35 g0 g1 g2 g3 g4 => Sys2Proof.Machine.execDec35 g0 g1 g2 g3 g4 s
  | .dec32s g0 g1 g2 g3 g4 => Sys2Proof.Machine.execDec32s g0 g1 g2 g3 g4 s
  | .rxopen m => Sys2Proof.Machine.execRxopen m s
  | .rxb b => Sys2Proof.Machine.execRxb b s
  | .rxend => Sys2Proof.Machine.execRxend s
  | .txopen => Sys2Proof.Machine.execTxopen s
  | .txb p => Sys2Proof.Machine.execTxb p s
  | .txck => Sys2Proof.Machine.execTxck s

end Sys2Proof.Machine
end

