-- ==== Sys2Proof/Machine/Issue.lean ====
section
/-! DEFINITION. The step an operation word makes (`30_encoding.md` rule R74). -/

namespace Sys2Proof.Machine

/-- Decode, then the operation's rule; a word that spells no operation faults `IllegalOp` and does nothing else
(`30_encoding.md` rules R74, R75). -/
def stepWord (w : OpWord) (s : State) : Answer :=
  match Sys2Proof.decode w with
  | .ok i => exec i s
  | .error _ => .next (s.takeFault .illegalOp)

end Sys2Proof.Machine
end

