-- ==== Sys2Proof/Machine/Port.lean ====
section
/-! DEFINITION. How the model takes the host's next action (`70_reset_and_hazards.md` rule R182): the operation port stands where
a processor would have a fetch, which the block has not (`10_state.md` rule R16). -/

namespace Sys2Proof.Machine

/-- The first of the host's coming actions, if there is one. -/
def State.nextAction (s : State) : Option HostAction := s.input.head?

/-- The state in which that action is no longer to come. -/
def State.taken (s : State) : State := { s with input := s.input.tail }

/-- The state in which the host's next action is to issue this word; everything after it as before. -/
def State.issue (s : State) (w : OpWord) : State := { s with input := .word w :: s.input }

end Sys2Proof.Machine
end

