-- ==== Sys2Proof/Machine/Step.lean ====
section
/-! DEFINITION. One step of the machine: the host's next action is carried out (`70_reset_and_hazards.md` rule R182). -/

namespace Sys2Proof.Machine

/-- One step. With no action to come the block does nothing and keeps its state (`60_exceptions.md` rule R163). -/
def step (s : State) : Host.Outcome State Fault Refusal :=
  match s.nextAction with
  | none => .next s
  | some (.word w) => stepWord w s.taken
  | some (.readReg n) => .next (s.taken.hostRead n)
  | some .reset => .next s.taken.hostReset

/-- `s` with a word of the table as the host's next action. -/
def State.withFetchWord (s : State) (nbits w : Nat) : State := s.issue (Sys2Proof.tableWord nbits w)

end Sys2Proof.Machine
end

