-- ==== Sys2Proof/Machine/Runs.lean ====
section
/-! DEFINITION. The spec's pure functions over whole units (`43_rx_framer.md` rules R117, R118), its pseudo-operations
(`30_encoding.md` rule R79), and what a sequence of operations leaves and shows (`10_state.md` rule R37). -/

namespace Sys2Proof.Machine

/-! ## Pure functions of a unit -/

/-- `tokenize(P)`: the orphans before the first start byte, and the runs (`43_rx_framer.md` rule R117). -/
def tokenize : List Byte → List Byte × List (List Byte)
  | [] => ([], [])
  | p :: ps =>
    if isStart p then ([], (p :: (tokenize ps).1) :: (tokenize ps).2)
    else (p :: (tokenize ps).1, (tokenize ps).2)

/-- `cksum(P)`: the sum of the plain bytes mod 65536 (`43_rx_framer.md` rule R118). -/
def cksum : List Byte → Word16
  | [] => 0
  | p :: ps => p.setWidth 16 + cksum ps

/-- A byte of a unit with its class (`10_state.md` rule R37). -/
abbrev Token := Byte × TokenClass

/-- The tokens of one run: its first byte is a START, the others are CONTs. -/
def runTokens : List Byte → List Token
  | [] => []
  | p :: ps => (p, .start) :: ps.map (fun q => (q, .cont))

/-- The token stream of a unit, read off its orphans and runs (`43_rx_framer.md` rule R130). -/
def pureTokens (P : List Byte) : List Token :=
  (tokenize P).1.map (fun q => (q, .orphan)) ++ (tokenize P).2.flatMap runTokens

/-- The length of a run as `CLEN` and `PREVLEN` hold it (`10_state.md` rule R28). -/
def runLength (c : List Byte) : Word16 := sat16 c.length

/-- A Command: one start byte and then continuation bytes (`30_encoding.md` rule R56). -/
def isCommand : List Byte → Bool
  | [] => false
  | p :: ps => isStart p && ps.all (fun q => !isStart q)

/-! ## Sequences of operations -/

/-- The state an operation leaves. -/
def State.after (s : State) (i : Instr) : State :=
  match exec i s with
  | .next t => t
  | .fault _ => s
  | .refused _ => s

/-- The state a sequence of operations leaves. -/
def State.afterAll (s : State) : List Instr → State
  | [] => s
  | i :: is => (s.after i).afterAll is

/-- The states a sequence of operations passes through, one after each operation. -/
def State.trace (s : State) : List Instr → List State
  | [] => []
  | i :: is => s.after i :: (s.after i).trace is

/-- The token the host reads after an RXB in phase BODY (`10_state.md` rule R37). -/
def State.token (s : State) : Token :=
  (resByte 0 s.res, if s.soc then .start else if s.orph then .orphan else .cont)

/-! ## Pseudo-operations (`30_encoding.md` rule R79) -/

/-- `RXSTR b0 .. bk`. -/
def rxStr (bs : List Byte) : List Instr := bs.map .rxb

/-- `TXSTR b0 .. bk`. -/
def txStr (bs : List Byte) : List Instr := bs.map .txb

/-- `RXUNIT mode, b0 .. bk`. -/
def rxUnit (m : BitVec 2) (bs : List Byte) : List Instr := .rxopen m :: (rxStr bs ++ [.rxend])

/-- `TXFRAME p0 .. pk`. -/
def txFrame (ps : List Byte) : List Instr := .txopen :: (txStr ps ++ [.txck])

/-- The two header bytes of a frame, high byte first (`30_encoding.md` rule R61). -/
def headerBytes (c : Word16) : List Byte := [c.extractLsb' 8 8, c.extractLsb' 0 8]

/-- The packet frame of a plain payload under a key (`30_encoding.md` rule R61). -/
def packetFrame (P : List Byte) (m : Byte) : List Byte :=
  headerBytes (cksum P) ++ P.map (fun p => swizzle p m)

end Sys2Proof.Machine
end

