-- ==== Sys2Proof/Safety.lean ====
section
/-! DEFINITION. The invariants of the machine: the eight of `10_state.md` rule R38 and those of the model's own form. -/

namespace Sys2Proof.Machine

/-- The two tables hold the loaded key's permutations (`10_state.md` rule R21). -/
def State.TablesMatchKey (s : State) : Prop :=
  ∀ i : Byte, s.fwd.read i.toNat = some (swizzle i s.magic) ∧ s.inv.read i.toNat = some (unswizzle i s.magic)

/-- A state in which the key `m` is loaded. -/
structure State.Keyed (s : State) (m : Byte) : Prop where
  keyv   : s.keyv = true
  magic  : s.magic = m
  tables : s.TablesMatchKey

/-- What a fault of this code leaves, spelled out field by field (`60_exceptions.md` rule R145). -/
def State.faultedWith (s : State) (code : BitVec 4) : State :=
  { s with lasterr := code, err := if s.err = 0 then code else s.err }

/-- The receive-path operations. -/
def isReceive : Instr → Bool
  | .rxopen _ => true
  | .rxb _ => true
  | .rxend => true
  | _ => false

/-- The transmit-path operations. -/
def isTransmit : Instr → Bool
  | .txopen => true
  | .txb _ => true
  | .txck => true
  | _ => false

/-- The codec operations. -/
def isCodec : Instr → Bool
  | .enc14 _ => true
  | .enc35 _ => true
  | .enc32s _ => true
  | .dec14 _ _ => true
  | .dec35 _ _ _ _ _ => true
  | .dec32s _ _ _ _ _ => true
  | _ => false

/-- The operations that read a table whenever they end ok, and RXOPEN of a unit whose body will (`60_exceptions.md` rule R144). -/
def needsKey : Instr → Bool
  | .swz _ => true
  | .uswz _ => true
  | .txb _ => true
  | .rxopen m => m == 1#2 || m == 2#2
  | _ => false

/-- A run starts: RXB in phase BODY of a plain byte of 0x80 or more (`10_state.md` rule R22). -/
def State.startsRun (s : State) (i : Instr) : Prop :=
  ∃ b, i = .rxb b ∧ s.rxph = .body ∧ 0x80#8 ≤ s.plainByte b

/-- An orphan arrives: RXB in phase BODY of a plain byte below 0x80 with no run open (`10_state.md` rule R22). -/
def State.getsOrphan (s : State) (i : Instr) : Prop :=
  ∃ b, i = .rxb b ∧ s.rxph = .body ∧ s.plainByte b < 0x80#8 ∧ s.incmd = false

/-- The eight invariants of `10_state.md` rule R38, in its order (`RXM != 3` is in the type of `rxm`). -/
structure State.Inv (s : State) : Prop where
  tables   : s.keyv = true → s.TablesMatchKey
  runOpen  : s.incmd = true ↔ s.clen ≠ 0
  closed   : s.rxph = .closed → s.incmd = false ∧ s.clen = 0 ∧ s.soc = false ∧ s.orph = false
  header   : s.rxph = .hdr0 ∨ s.rxph = .hdr1 →
    s.rxm = .framed ∧ s.rxsum = 0 ∧ s.incmd = false ∧ s.orphs = false
  opened   : s.rxph ≠ .closed → s.verdict = .noVerdict ∧ (s.rxm ≠ .plain → s.keyv = true)
  start    : s.soc = true → s.incmd = true ∧ s.clen = 1 ∧ s.orph = false
  orphan   : s.orph = true → s.incmd = false ∧ s.orphs = true
  length   : s.rlen = 0 ∨ s.rlen = 1 ∨ s.rlen = 2 ∨ s.rlen = 5
  verdicts : s.verdict ≠ .noVerdict → s.rxm = .framed

/-- Both tables are in canonical form. -/
structure State.TableForm (s : State) : Prop where
  fwd : s.fwd.wf
  inv : s.inv.wf

/-- The fault registers hold codes of `60_exceptions.md` rule R144, and `ERR` is not clear while the latest step's fault stands. -/
structure State.FaultForm (s : State) : Prop where
  lasterr : s.lasterr ≤ 5#4
  err     : s.err ≤ 5#4
  first   : s.lasterr ≠ 0 → s.err ≠ 0

/-- What stands of a unit: a verdict on a frame with the comparison it records (`43_rx_framer.md` rule R128) until the next RXOPEN,
and no length reported while a header is read (rule R126: "`PREVLEN`, `CLEN`, `RXSUM` are 0 already"). -/
structure State.UnitForm (s : State) : Prop where
  closed   : s.verdict ≠ .noVerdict → s.rxph = .closed
  matched  : s.verdict = .matched → s.rxsum = s.ckexp
  mismatch : s.verdict = .mismatch → s.rxsum ≠ s.ckexp
  header   : s.rxph = .hdr0 ∨ s.rxph = .hdr1 → s.prevlen = 0

end Sys2Proof.Machine
end

