-- ==== Sys2Proof/Certificates/Slice0/Obligations.lean ====
section
/-! DEFINITION. The statements about the machine, each a definition of type Prop, without proofs. Each docstring names the rule of
spec/ it formalises or rests on. -/

open Sys2Proof Sys2Proof.Machine

/-! ## Encoding -/

/-- Decoding an encoded instruction gives it back, every operand at every value (`30_encoding.md` rules R65 to R74). -/
def Obligations.DecodeOfEncodeIsInstruction : Prop :=
  ∀ i : Instr, decode (encode i) = .ok i

/-- A word that decodes is the word its instruction encodes to: no word is a second spelling (`30_encoding.md` R73 to R75). -/
def Obligations.EncodeOfDecodeIsWord : Prop :=
  ∀ (w : OpWord) (i : Instr), decode w = .ok i → encode i = w

/-- "No two rows can match the same word" (`30_encoding.md` rule R73). -/
def Obligations.NoWordSelectsTwoRows : Prop :=
  opcodeMap.Pairwise (fun r r' => ∀ w : OpWord, ¬ (r.selects w = true ∧ r'.selects w = true))

/-- Rule R75: which words spell an operation, that every other word faults `IllegalOp` and does nothing else, that RXOPEN with mode 3
does so too, and that every word has one outcome. Each pair is an assigned `OP` and how many operand bits its format has. -/
def Obligations.IllegalWordsFaultAndDoNothingElse : Prop :=
  let assigned : List (Nat × Nat) :=
    [(0x00, 0), (0x01, 0), (0x10, 8), (0x11, 8), (0x12, 8), (0x20, 35), (0x21, 35), (0x22, 32), (0x28, 16), (0x29, 40),
     (0x2A, 40), (0x30, 2), (0x31, 8), (0x32, 0), (0x38, 0), (0x39, 8), (0x3A, 0)]
  (∀ w : OpWord, (∃ i, decode w = .ok i) ↔
    ∃ e ∈ assigned, w.toNat / 2 ^ 40 = e.1 ∧ w.toNat % 2 ^ 40 < 2 ^ e.2) ∧
  (∀ (w : OpWord) (s : State), (¬ ∃ i, decode w = .ok i) → stepWord w s = .next (s.faultedWith 1)) ∧
  (∀ s : State, decode 0x300000000003#48 = .ok (.rxopen 3) ∧ exec (.rxopen 3) s = .next (s.faultedWith 1)) ∧
  (∀ (w : OpWord) (s : State), ∃ t, stepWord w s = .next t) ∧
  ((List.range 256).filter (fun op => !(assigned.map Prod.fst).contains op)).length = 239

/-- Words of `95_test_vectors.md` decode to the operations printed beside them. -/
def Obligations.SampleWordsDecodeAsPrinted : Prop :=
  decode 0x010000000000#48 = .ok .errack ∧ decode 0x1200000000D4#48 = .ok (.uswz 0xD4) ∧
  decode 0x22007FFFFFFF#48 = .ok (.enc32s 0x7FFFFFFF) ∧
  decode 0x2A7F7F7F7818#48 = .ok (.dec32s 0x7F 0x7F 0x7F 0x78 0x18) ∧
  decode 0x300000000002#48 = .ok (.rxopen 2) ∧ decode 0x3900000000DA#48 = .ok (.txb 0xDA)

/-! ## How a step ends -/

/-- Rule R81: NOP. -/
def Obligations.NopClearsOnlyLastErr : Prop :=
  decode 0x000000000000#48 = .ok .nop ∧
  ∀ s : State, exec .nop s = .next { s with lasterr := 0 }

/-- Rule R82: ERRACK. -/
def Obligations.ErrackClearsFaultRegisters : Prop :=
  decode 0x010000000000#48 = .ok .errack ∧
  ∀ s : State, exec .errack s = .next { s with err := 0, lasterr := 0 }

/-- Every operation ends in a next state, with `LASTERR` 0 or by a fault that wrote only the fault registers; so does every step
of the machine, with whatever the host does (`00_scope.md` rule R12, `70_reset_and_hazards.md` rule R184). -/
def Obligations.EveryStepEndsOkOrFault : Prop :=
  (∀ (i : Instr) (s : State), ∃ t, exec i s = .next t ∧
    (t.lasterr = 0 ∨ (t.lasterr ≠ 0 ∧ t = s.faultedWith t.lasterr))) ∧
  (∀ s : State, ∃ t, step s = .next t)

/-- Rule R145: a step that ends with a fault wrote `LASTERR`, and `ERR` if it was 0, and nothing else. -/
def Obligations.FaultWritesOnlyFaultRegisters : Prop :=
  ∀ (w : OpWord) (s t : State), stepWord w s = .next t → t.lasterr ≠ 0 →
    t = { s with lasterr := t.lasterr, err := if s.err = 0 then t.lasterr else s.err }

/-- Rule R144: the codes, and exactly when each is raised. -/
def Obligations.FaultCodesAreRaisedExactlyWhen : Prop :=
  ∀ (w : OpWord) (s t : State), stepWord w s = .next t →
    (t.lasterr = 1 ↔ (¬ ∃ i, decode w = .ok i) ∨ decode w = .ok (.rxopen 3)) ∧
    (t.lasterr = 2 ↔ s.keyv = false ∧ ∃ i, decode w = .ok i ∧
      ((∃ b, i = .swz b) ∨ (∃ c, i = .uswz c) ∨ (∃ p, i = .txb p) ∨ i = .rxopen 1 ∨ i = .rxopen 2)) ∧
    (t.lasterr = 3 ↔ s.rxph = .closed ∧ ∃ i, decode w = .ok i ∧ ((∃ b, i = .rxb b) ∨ i = .rxend)) ∧
    (t.lasterr = 4 ↔ ∃ v, decode w = .ok (.enc14 v) ∧ 16383 < v.toNat) ∧
    (t.lasterr = 5 ↔
      (∃ g0 g1, decode w = .ok (.dec14 g0 g1) ∧ (g0.getLsbD 7 = true ∨ g1.getLsbD 7 = true)) ∨
      (∃ g0 g1 g2 g3 g4, (decode w = .ok (.dec35 g0 g1 g2 g3 g4) ∨ decode w = .ok (.dec32s g0 g1 g2 g3 g4)) ∧
        (g0.getLsbD 7 = true ∨ g1.getLsbD 7 = true ∨ g2.getLsbD 7 = true ∨ g3.getLsbD 7 = true
          ∨ g4.getLsbD 7 = true))) ∧
    t.lasterr ≤ 5 ∧ (t.err ≤ 5 ∨ t.err = s.err)

/-- Rule R32: what `ERR` holds after each operation and after reset, and that a nonzero `ERR` blocks nothing. -/
def Obligations.ErrKeepsFirstFaultAndBlocksNothing : Prop :=
  (∀ (i : Instr) (s t : State), exec i s = .next t →
    t.err = if i = .errack then 0 else if s.err = 0 then t.lasterr else s.err) ∧
  (∀ (w : OpWord) (s t : State), (¬ ∃ i, decode w = .ok i) → stepWord w s = .next t →
    t.err = if s.err = 0 then t.lasterr else s.err) ∧
  (∀ s : State, s.hostReset.err = 0) ∧ State.reset.err = 0 ∧
  (∀ (i : Instr) (s t : State) (e : BitVec 4), exec i s = .next t →
    ∃ e', exec i { s with err := e } = .next { t with err := e' })

/-! ## The cipher -/

/-- Rule R87: unswizzling undoes swizzling, and the other way round, for every byte and key. -/
def Obligations.SwizzleRoundTrips : Prop :=
  ∀ b m : Byte, unswizzle (swizzle b m) m = b ∧ swizzle (unswizzle b m) m = b

/-- Rule R88: for each key the cipher is a permutation and `U` its inverse; no byte is fixed for every key; one pair determines the key. -/
def Obligations.SwizzleIsKeyedPermutation : Prop :=
  (∀ m : Byte, Function.Bijective (fun b => swizzle b m) ∧
    Function.LeftInverse (fun c => unswizzle c m) (fun b => swizzle b m) ∧
    Function.RightInverse (fun c => unswizzle c m) (fun b => swizzle b m)) ∧
  (∀ b : Byte, ∃ m : Byte, swizzle b m ≠ b) ∧
  (∀ b m m' : Byte, swizzle b m = swizzle b m' → m = m')

/-- What the wire byte's bit 7 is made of (`41_swizzle.md` rule R93). -/
def Obligations.WireBitSevenComesFromBitZeroAndKey : Prop :=
  ∀ b m : Byte,
    (swap07 b ^^^ m).getLsbD 7 = (b.getLsbD 0 ^^ m.getLsbD 7) ∧
    (swizzle b m).getLsbD 7
      = ((b.getLsbD 0 ^^ m.getLsbD 7) ^^ ((swap07 b ^^^ m).extractLsb' 0 7 == 0x7F#7))

/-- Rule R95: the key-recovery identity. -/
def Obligations.ZeroByteRevealsKey : Prop :=
  (∀ m : Byte, swizzle 0 m = BitVec.ofNat 8 ((m.toNat + 1) % 256) ∧
    unswizzle (BitVec.ofNat 8 ((m.toNat + 1) % 256)) m = 0) ∧
  (∀ (s : State) (m : Byte), s.Keyed m →
    ∃ t, exec (.swz 0) s = .next t ∧ resByte 0 t.res = BitVec.ofNat 8 ((m.toNat + 1) % 256))

/-- Rule R89: SETKEY. Every entry of both tables is stored to; everything else but `MAGIC`, `KEYV`, `RES`, `RLEN` and `LASTERR` is
unchanged; with the loaded key loaded again nothing changes but the last three. -/
def Obligations.SetkeyLoadsKeyAndBothTables : Prop :=
  ∀ (k : Byte) (s : State),
    decode (0x10#8 ++ 0#32 ++ k) = .ok (.setkey k) ∧
    (∃ f g : Memory,
      exec (.setkey k) s =
        .next { s with magic := k, fwd := f, inv := g, keyv := true, res := 0, rlen := 0, lasterr := 0 } ∧
      (∀ b : Byte, f.read b.toNat = some (swizzle b k) ∧ g.read b.toNat = some (unswizzle b k)) ∧
      (∀ a : Nat, 256 ≤ a → f.read a = s.fwd.read a ∧ g.read a = s.inv.read a)) ∧
    (s.Keyed k → s.TableForm →
      exec (.setkey k) s = .next { s with res := 0, rlen := 0, lasterr := 0 })

/-- Rule R90: SWZ. -/
def Obligations.SwzReturnsForwardEntry : Prop :=
  ∀ (b : Byte) (s : State),
    decode (0x11#8 ++ 0#32 ++ b) = .ok (.swz b) ∧
    (s.keyv = true →
      exec (.swz b) s = .next { s with res := (s.fwdAt b).setWidth 40, rlen := 1, lasterr := 0 }) ∧
    (s.keyv = false → exec (.swz b) s = .next (s.faultedWith 2)) ∧
    (∀ m, s.Keyed m → s.fwdAt b = swizzle b m ∧ s.fwdAt 0 = m + 1)

/-- Rule R91: USWZ. -/
def Obligations.UswzReturnsInverseEntry : Prop :=
  ∀ (c : Byte) (s : State),
    decode (0x12#8 ++ 0#32 ++ c) = .ok (.uswz c) ∧
    (s.keyv = true →
      exec (.uswz c) s = .next { s with res := (s.invAt c).setWidth 40, rlen := 1, lasterr := 0 }) ∧
    (s.keyv = false → exec (.uswz c) s = .next (s.faultedWith 2)) ∧
    (∀ m, s.Keyed m → s.invAt c = unswizzle c m)

/-- Rule R92: after `SETKEY k` from any state, every lookup returns the function's value; with no key it faults. -/
def Obligations.LookupsAfterSetkeyMatchFunctions : Prop :=
  ∀ (k b : Byte) (s : State), ∃ t u v, exec (.setkey k) s = .next t ∧
    exec (.swz b) t = .next u ∧ u.res = (swizzle b k).setWidth 40 ∧
    exec (.uswz b) t = .next v ∧ v.res = (unswizzle b k).setWidth 40 ∧
    (s.keyv = false → exec (.swz b) s = .next (s.faultedWith 2) ∧ exec (.uswz b) s = .next (s.faultedWith 2))

/-- The tables' frame: every operation but SETKEY leaves every byte of both tables, the key and `KEYV` as they were
(`10_state.md` rules R17 to R20, `20_memory.md` rule R41). -/
def Obligations.OnlySetkeyStoresToTables : Prop :=
  ∀ (i : Instr) (s t : State), exec i s = .next t → (∀ k, i ≠ .setkey k) →
    (∀ a : Nat, t.fwd.read a = s.fwd.read a ∧ t.inv.read a = s.inv.read a) ∧
    (∀ b : Byte, t.fwdAt b = s.fwdAt b ∧ t.invAt b = s.invAt b) ∧
    t.magic = s.magic ∧ t.keyv = s.keyv

/-- Rule R18: `KEYV` is 0 after reset, set by every SETKEY, cleared by nothing but reset; while it is 0 every operation that needs a
table faults `NoKey`, so what `MAGIC` and the tables then hold changes nothing in any outcome, and after the SETKEY that ends
that time nothing is left of it. -/
def Obligations.UnkeyedTablesAreNotObservable : Prop :=
  State.reset.keyv = false ∧ (∀ s : State, s.hostReset.keyv = false) ∧
  (∀ (i : Instr) (s t : State), exec i s = .next t → (t.keyv = true ↔ s.keyv = true ∨ ∃ k, i = .setkey k)) ∧
  (∀ (w : OpWord) (s t : State), (¬ ∃ i, decode w = .ok i) → stepWord w s = .next t → t.keyv = s.keyv) ∧
  (∀ (i : Instr) (s : State), s.keyv = false → needsKey i = true → exec i s = .next (s.faultedWith 2)) ∧
  (∀ (i : Instr) (s t : State) (m : Byte) (f g : Memory), s.Inv → s.keyv = false → exec i s = .next t →
    ∃ m' f' g', exec i { s with magic := m, fwd := f, inv := g } = .next { t with magic := m', fwd := f', inv := g' } ∧
      (t.keyv = true → m' = t.magic ∧
        ∀ b : Byte, f'.read b.toNat = t.fwd.read b.toNat ∧ g'.read b.toNat = t.inv.read b.toNat))

/-! ## The codec -/

/-- Rule R99: decoding encoded groups gives the value back and encoding a decoded list gives the list back, for every group count. -/
def Obligations.GroupCodecRoundTrips : Prop :=
  (∀ n v : Nat, 1 ≤ n → v < 2 ^ (7 * n) →
    ∃ gs, enc v n = some gs ∧ gs.length = n ∧ (∀ g ∈ gs, g < 0x80#8) ∧ dec gs = some v) ∧
  (∀ gs : List Byte, gs ≠ [] → (∀ g ∈ gs, g < 0x80#8) →
    ∃ v, dec gs = some v ∧ v < 2 ^ (7 * gs.length) ∧ enc v gs.length = some gs)

/-- Rule R100: ENC14; with a bit of `ARG[39:35]` set the word is not an ENC14 at all. -/
def Obligations.Enc14EncodesOrFaultsRange : Prop :=
  ∀ (v : BitVec 35) (s : State),
    decode (0x20#8 ++ 0#5 ++ v) = .ok (.enc14 v) ∧
    (v.toNat ≤ 16383 → ∃ gs, enc v.toNat 2 = some gs ∧
      gs = [(v.extractLsb' 7 7).setWidth 8, (v.extractLsb' 0 7).setWidth 8] ∧
      unpackBytes 2 (BitVec.ofNat 40 (packBytes gs)) = gs ∧
      exec (.enc14 v) s = .next { s with res := BitVec.ofNat 40 (packBytes gs), rlen := 2, lasterr := 0 }) ∧
    (16383 < v.toNat → exec (.enc14 v) s = .next (s.faultedWith 4)) ∧
    (∀ x : BitVec 5, x ≠ 0 → stepWord (0x20#8 ++ x ++ v) s = .next (s.faultedWith 1))

/-- Rule R101: ENC35. -/
def Obligations.Enc35EncodesFiveGroups : Prop :=
  ∀ (v : BitVec 35) (s : State),
    decode (0x21#8 ++ 0#5 ++ v) = .ok (.enc35 v) ∧
    ∃ gs, enc v.toNat 5 = some gs ∧
      gs = [(v.extractLsb' 28 7).setWidth 8, (v.extractLsb' 21 7).setWidth 8, (v.extractLsb' 14 7).setWidth 8,
        (v.extractLsb' 7 7).setWidth 8, (v.extractLsb' 0 7).setWidth 8] ∧
      unpackBytes 5 (BitVec.ofNat 40 (packBytes gs)) = gs ∧
      exec (.enc35 v) s = .next { s with res := BitVec.ofNat 40 (packBytes gs), rlen := 5, lasterr := 0 }

/-- Rule R102: ENC32S, the groups of the 35-bit sign extension; for a value not negative the same bytes as ENC35's. -/
def Obligations.Enc32sEncodesSignExtension : Prop :=
  ∀ (x : BitVec 32) (s : State),
    decode (0x22#8 ++ 0#8 ++ x) = .ok (.enc32s x) ∧
    (∃ v : BitVec 35, v.toInt = x.toInt ∧ v.extractLsb' 0 32 = x ∧
      ∃ gs, enc v.toNat 5 = some gs ∧
        exec (.enc32s x) s = .next { s with res := BitVec.ofNat 40 (packBytes gs), rlen := 5, lasterr := 0 }) ∧
    (0 ≤ x.toInt → exec (.enc32s x) s = exec (.enc35 (BitVec.ofNat 35 x.toNat)) s)

/-- Rule R103: DEC14. -/
def Obligations.Dec14DecodesOrFaultsBadGroup : Prop :=
  ∀ (g0 g1 : Byte) (s : State),
    decode (0x28#8 ++ 0#24 ++ g0 ++ g1) = .ok (.dec14 g0 g1) ∧
    (g0 < 0x80#8 → g1 < 0x80#8 →
      dec [g0, g1] = some (g0.toNat * 2 ^ 7 + g1.toNat) ∧
      exec (.dec14 g0 g1) s =
        .next { s with res := BitVec.ofNat 40 (g0.toNat * 2 ^ 7 + g1.toNat), rlen := 0, lasterr := 0 }) ∧
    (0x80#8 ≤ g0 ∨ 0x80#8 ≤ g1 → exec (.dec14 g0 g1) s = .next (s.faultedWith 5))

/-- Rule R104: DEC35. -/
def Obligations.Dec35DecodesOrFaultsBadGroup : Prop :=
  ∀ (g0 g1 g2 g3 g4 : Byte) (s : State),
    let v := g0.toNat * 2 ^ 28 + g1.toNat * 2 ^ 21 + g2.toNat * 2 ^ 14 + g3.toNat * 2 ^ 7 + g4.toNat
    decode (0x29#8 ++ g0 ++ g1 ++ g2 ++ g3 ++ g4) = .ok (.dec35 g0 g1 g2 g3 g4) ∧
    ((∀ g ∈ [g0, g1, g2, g3, g4], g < 0x80#8) →
      dec [g0, g1, g2, g3, g4] = some v ∧ v < 2 ^ 35 ∧
      exec (.dec35 g0 g1 g2 g3 g4) s = .next { s with res := BitVec.ofNat 40 v, rlen := 0, lasterr := 0 }) ∧
    ((∃ g ∈ [g0, g1, g2, g3, g4], 0x80#8 ≤ g) → exec (.dec35 g0 g1 g2 g3 g4) s = .next (s.faultedWith 5))

/-- Rule R105: DEC32S keeps the low 32 bits, reads them as two's complement, and says in `NC` whether bits 34 to 32 of the field are
copies of bit 31, which is whether the field is the sign extension of a 32-bit value (rule R108). -/
def Obligations.Dec32sReadsLow32BitsSigned : Prop :=
  ∀ (g0 g1 g2 g3 g4 : Byte) (s : State),
    let v := g0.toNat * 2 ^ 28 + g1.toNat * 2 ^ 21 + g2.toNat * 2 ^ 14 + g3.toNat * 2 ^ 7 + g4.toNat
    let x := BitVec.ofNat 32 v
    decode (0x2A#8 ++ g0 ++ g1 ++ g2 ++ g3 ++ g4) = .ok (.dec32s g0 g1 g2 g3 g4) ∧
    ((∀ g ∈ [g0, g1, g2, g3, g4], g < 0x80#8) →
      ∃ n : Bool, (n = false ↔ ∃ y : BitVec 32, (y.signExtend 35).toNat = v) ∧
        (n = false ↔ (BitVec.ofNat 35 v).extractLsb' 32 3 = if x.msb then 7#3 else 0#3) ∧
        exec (.dec32s g0 g1 g2 g3 g4) s =
          .next { s with res := BitVec.ofInt 40 x.toInt, rlen := 0, nc := n, lasterr := 0 }) ∧
    ((∃ g ∈ [g0, g1, g2, g3, g4], 0x80#8 ≤ g) → exec (.dec32s g0 g1 g2 g3 g4) s = .next (s.faultedWith 5))

/-- Rule R107: DEC32S of what ENC32S produced gives the value back with `NC = 0`; and for every field that DEC32S finds canonical,
ENC32S of the result's low 32 bits gives the same five bytes. -/
def Obligations.SignedFieldRoundTrips : Prop :=
  (∀ (x : BitVec 32) (s : State), ∃ t u, exec (.enc32s x) s = .next t ∧
    exec (.dec32s (resByte 4 t.res) (resByte 3 t.res) (resByte 2 t.res) (resByte 1 t.res) (resByte 0 t.res)) t = .next u ∧
    u.res = x.signExtend 40 ∧ u.nc = false ∧ u.lasterr = 0) ∧
  (∀ (g0 g1 g2 g3 g4 : Byte) (s t : State), exec (.dec32s g0 g1 g2 g3 g4) s = .next t → t.lasterr = 0 → t.nc = false →
    ∃ u, exec (.enc32s (t.res.extractLsb' 0 32)) t = .next u ∧ unpackBytes 5 u.res = [g0, g1, g2, g3, g4])

/-- The codec operations read no register and write none but `RES`, `RLEN`, `NC` (DEC32S only) and the fault registers
(`42_codec7.md` rule R110). -/
def Obligations.CodecOperationsArePure : Prop :=
  ∀ (i : Instr) (s s' t t' : State), isCodec i = true → exec i s = .next t → exec i s' = .next t' →
    t.lasterr = t'.lasterr ∧
    (t.lasterr = 0 → t.res = t'.res ∧ t.rlen = t'.rlen) ∧
    t = { s with res := t.res, rlen := t.rlen, nc := t.nc, lasterr := t.lasterr, err := t.err } ∧
    ((∀ g0 g1 g2 g3 g4, i ≠ .dec32s g0 g1 g2 g3 g4) → t.nc = s.nc) ∧
    ((∃ g0 g1 g2 g3 g4, i = .dec32s g0 g1 g2 g3 g4) → t.lasterr = 0 → t.nc = t'.nc)

/-! ## The receive path -/

/-- Rule R119: RXOPEN. -/
def Obligations.RxopenOpensUnitOrFaults : Prop :=
  ∀ (m : BitVec 2) (s : State),
    decode (0x30#8 ++ 0#38 ++ m) = .ok (.rxopen m) ∧
    (m ≠ 3 → (m = 0 ∨ s.keyv = true) → ∃ mode : RxMode, mode.bits = m ∧
      exec (.rxopen m) s =
        .next { s with rxm := mode, rxph := if m = 2 then .hdr0 else .body, ckexp := 0, rxsum := 0, incmd := false,
                       clen := 0, prevlen := 0, soc := false, orph := false, orphs := false, verdict := .noVerdict,
                       res := 0, rlen := 0, lasterr := 0 }) ∧
    (m = 3 → exec (.rxopen m) s = .next (s.faultedWith 1)) ∧
    (m = 1 ∨ m = 2 → s.keyv = false → exec (.rxopen m) s = .next (s.faultedWith 2))

/-- Rule R121: RXB in a header phase takes the byte as it arrives and changes nothing else; and with no unit open RXB faults
(`43_rx_framer.md` rule R120). -/
def Obligations.RxbTakesHeaderBytesAsTheyArrive : Prop :=
  ∀ (b : Byte) (s : State),
    decode (0x31#8 ++ 0#32 ++ b) = .ok (.rxb b) ∧
    (s.rxph = .closed → exec (.rxb b) s = .next (s.faultedWith 3)) ∧
    (s.rxph = .hdr0 → exec (.rxb b) s =
      .next { s with ckexp := b ++ s.ckexp.extractLsb' 0 8, rxph := .hdr1, res := 0, rlen := 0, lasterr := 0 }) ∧
    (s.rxph = .hdr1 → exec (.rxb b) s =
      .next { s with ckexp := s.ckexp.extractLsb' 8 8 ++ b, rxph := .body, res := 0, rlen := 0, lasterr := 0 }) ∧
    (s.Inv → s.rxph = .hdr0 ∨ s.rxph = .hdr1 → s.rxsum = 0 ∧ s.soc = false ∧ s.orph = false)

/-- Rules R122 and R123: RXB in phase BODY, by the class of the plain byte. -/
def Obligations.RxbSumsAndClassifiesBodyBytes : Prop :=
  ∀ (b : Byte) (s : State), s.rxph = .body →
    let p := if s.rxm = .plain then b else s.invAt b
    (∀ m, s.Keyed m → s.rxm ≠ .plain → p = unswizzle b m) ∧
    (0x80#8 ≤ p → exec (.rxb b) s =
      .next { s with rxsum := BitVec.ofNat 16 (s.rxsum.toNat + p.toNat), res := p.setWidth 40, rlen := 1,
                     prevlen := s.clen, clen := 1, incmd := true, soc := true, orph := false, lasterr := 0 }) ∧
    (p < 0x80#8 → s.incmd = true → exec (.rxb b) s =
      .next { s with rxsum := BitVec.ofNat 16 (s.rxsum.toNat + p.toNat), res := p.setWidth 40, rlen := 1,
                     clen := BitVec.ofNat 16 (min (s.clen.toNat + 1) 0xFFFF), soc := false, orph := false,
                     lasterr := 0 }) ∧
    (p < 0x80#8 → s.incmd = false → exec (.rxb b) s =
      .next { s with rxsum := BitVec.ofNat 16 (s.rxsum.toNat + p.toNat), res := p.setWidth 40, rlen := 1,
                     soc := false, orph := true, orphs := true, lasterr := 0 })

/-- Rules R126 and R127: RXEND of a frame cut short in its header, and what closing the run writes in every mode; the whole of the
next state in the two modes without a verdict. With no unit open RXEND faults (`43_rx_framer.md` rule R125). -/
def Obligations.RxendClosesUnit : Prop :=
  ∀ s : State,
    decode 0x320000000000#48 = .ok .rxend ∧
    (s.rxph = .closed → exec .rxend s = .next (s.faultedWith 3)) ∧
    (s.rxph = .hdr0 ∨ s.rxph = .hdr1 → exec .rxend s =
      .next { s with verdict := .short, rxph := .closed, res := 0, rlen := 0, lasterr := 0 }) ∧
    (s.Inv → s.UnitForm → s.rxph = .hdr0 ∨ s.rxph = .hdr1 → s.prevlen = 0 ∧ s.clen = 0 ∧ s.rxsum = 0) ∧
    (s.rxph = .body → s.rxm = .plain ∨ s.rxm = .unframed → exec .rxend s =
      .next { s with prevlen := s.clen, clen := 0, incmd := false, soc := false, orph := false, rxph := .closed,
                     verdict := .noVerdict, res := 0, rlen := 0, lasterr := 0 }) ∧
    (s.rxph = .body → ∃ v r n, exec .rxend s =
      .next { s with prevlen := s.clen, clen := 0, incmd := false, soc := false, orph := false, rxph := .closed,
                     verdict := v, res := r, rlen := n, lasterr := 0 })

/-- Rule R129: RXEND of a frame compares the sums and returns the swizzled token. It holds for every value of the two OPEN tokens
(log 6). -/
def Obligations.RxendGivesVerdictAndReply : Prop :=
  ∀ s : State, s.rxph = .body → s.rxm = .framed →
    (s.rxsum = s.ckexp → exec .rxend s =
      .next { s with prevlen := s.clen, clen := 0, incmd := false, soc := false, orph := false, rxph := .closed,
                     verdict := .matched, res := (s.fwdAt Config.ackToken).setWidth 40, rlen := 1, lasterr := 0 }) ∧
    (s.rxsum ≠ s.ckexp → exec .rxend s =
      .next { s with prevlen := s.clen, clen := 0, incmd := false, soc := false, orph := false, rxph := .closed,
                     verdict := .mismatch, res := (s.fwdAt Config.nakToken).setWidth 40, rlen := 1, lasterr := 0 }) ∧
    (∀ m, s.Keyed m → s.fwdAt Config.ackToken = swizzle Config.ackToken m ∧
      s.fwdAt Config.nakToken = swizzle Config.nakToken m)

/-- The tokens keep the constraints of `00_scope.md` rule R8, so the two replies differ under every key. -/
def Obligations.AckAndNakRepliesDiffer : Prop :=
  0x80#8 ≤ Config.ackToken ∧ 0x80#8 ≤ Config.nakToken ∧
  ∀ m : Byte, swizzle Config.ackToken m ≠ swizzle Config.nakToken m

/-- Rule R25: the receive phase moves by the rule's table and no other way. -/
def Obligations.ReceivePhaseFollowsTable : Prop :=
  (∀ (i : Instr) (s t : State), exec i s = .next t →
    (t.lasterr ≠ 0 → t.rxph = s.rxph) ∧
    (isReceive i = false → t.rxph = s.rxph) ∧
    (t.lasterr = 0 → i = .rxopen 2 → t.rxph = .hdr0) ∧
    (t.lasterr = 0 → i = .rxopen 0 ∨ i = .rxopen 1 → t.rxph = .body) ∧
    ((∃ b, i = .rxb b) → s.rxph = .hdr0 → t.rxph = .hdr1) ∧
    ((∃ b, i = .rxb b) → s.rxph = .hdr1 → t.rxph = .body) ∧
    ((∃ b, i = .rxb b) → s.rxph = .body → t.rxph = .body) ∧
    (i = .rxend → t.rxph = .closed) ∧
    ((∃ b, i = .rxb b) ∨ i = .rxend → s.rxph = .closed → t.rxph = .closed ∧ t.lasterr = 3)) ∧
  (∀ (w : OpWord) (s t : State), (¬ ∃ i, decode w = .ok i) → stepWord w s = .next t → t.rxph = s.rxph) ∧
  (∀ s : State, s.hostReset.rxph = .closed) ∧ State.reset.rxph = .closed

/-- What sets and clears each of the six flags (`10_state.md` rule R22), operation by operation in the states that keep the
invariants of rule R38 (log 8); a word that spells no operation changes none, and reset clears all six. -/
def Obligations.FlagsAreSetAndClearedAsTabled : Prop :=
  (∀ (i : Instr) (s t : State), s.Inv → exec i s = .next t →
    (t.lasterr ≠ 0 → t.keyv = s.keyv ∧ t.incmd = s.incmd ∧ t.soc = s.soc ∧ t.orph = s.orph ∧ t.orphs = s.orphs ∧
      t.nc = s.nc) ∧
    (t.lasterr = 0 →
      (t.keyv = true ↔ (∃ k, i = .setkey k) ∨ s.keyv = true) ∧
      (t.incmd = true ↔ s.startsRun i ∨ (s.incmd = true ∧ i ≠ .rxend ∧ ∀ m, i ≠ .rxopen m)) ∧
      (t.soc = true ↔ s.startsRun i ∨ (s.soc = true ∧ isReceive i = false)) ∧
      (t.orph = true ↔ s.getsOrphan i ∨ (s.orph = true ∧ isReceive i = false)) ∧
      (t.orphs = true ↔ s.getsOrphan i ∨ (s.orphs = true ∧ ∀ m, i ≠ .rxopen m)) ∧
      ((∀ g0 g1 g2 g3 g4, i ≠ .dec32s g0 g1 g2 g3 g4) → t.nc = s.nc) ∧
      (∀ g0 g1 g2 g3 g4, i = .dec32s g0 g1 g2 g3 g4 →
        (t.nc = true ↔ nonCanonical (dec35Value g0 g1 g2 g3 g4) = true)))) ∧
  (∀ (w : OpWord) (s t : State), (¬ ∃ i, decode w = .ok i) → stepWord w s = .next t →
    t.keyv = s.keyv ∧ t.incmd = s.incmd ∧ t.soc = s.soc ∧ t.orph = s.orph ∧ t.orphs = s.orphs ∧ t.nc = s.nc) ∧
  (∀ s : State, s.hostReset.keyv = false ∧ s.hostReset.incmd = false ∧ s.hostReset.soc = false ∧
    s.hostReset.orph = false ∧ s.hostReset.orphs = false ∧ s.hostReset.nc = false)

/-- Rule R117: the tokenizer cuts before every start byte, gives the bytes back joined, and finds exactly the Commands of a stream
of Commands. -/
def Obligations.TokenizerCutsAtStartBytes : Prop :=
  (∀ P : List Byte,
    (tokenize P).1 = P.takeWhile (fun p => decide (p < 0x80#8)) ∧
    (tokenize P).1 ++ (tokenize P).2.flatten = P ∧
    (∀ C ∈ (tokenize P).2, ∃ p ps, C = p :: ps ∧ 0x80#8 ≤ p ∧ ∀ q ∈ ps, q < 0x80#8)) ∧
  (∀ Cs : List (List Byte), (∀ C ∈ Cs, ∃ p ps, C = p :: ps ∧ 0x80#8 ≤ p ∧ ∀ q ∈ ps, q < 0x80#8) →
    tokenize Cs.flatten = ([], Cs))

/-- Rule R118: the checksum is the sum of the plain bytes mod 65536, additive over concatenation and blind to their order. -/
def Obligations.ChecksumIsSumModulo65536 : Prop :=
  (∀ P : List Byte, cksum P = BitVec.ofNat 16 ((P.map BitVec.toNat).sum)) ∧
  cksum [] = 0 ∧
  (∀ P Q : List Byte, cksum (P ++ Q) = cksum P + cksum Q) ∧
  (∀ P Q : List Byte, P.Perm Q → cksum P = cksum Q)

/-- Rule R130: receiving a PLAIN unit of any bytes, or an UNFRAMED one under a loaded key, from any state, gives the pure tokenizer's
token stream, the pure checksum, the orphan flag and the run lengths of the plain bytes. -/
def Obligations.StreamingReceiveEqualsPureFunctions : Prop :=
  ∀ (s : State) (m : BitVec 2) (bs P : List Byte),
    (m = 0 ∧ P = bs ∨ m = 1 ∧ ∃ k, s.Keyed k ∧ P = bs.map (fun b => unswizzle b k)) →
    let steps := (s.after (.rxopen m)).trace (rxStr bs)
    let u := s.afterAll (rxUnit m bs)
    steps.map State.token = pureTokens P ∧
    u.rxsum = cksum P ∧
    (u.orphs = true ↔ (tokenize P).1 ≠ []) ∧
    ((steps.filter (fun t => t.soc)).tail.map (fun t => t.prevlen) ++ [u.prevlen]
      = if (tokenize P).2 = [] then [0] else (tokenize P).2.map runLength) ∧
    (∀ t ∈ steps, t.lasterr = 0) ∧ u.lasterr = 0

/-- Rule R128: the verdict on a frame of any two header bytes and any body, received under a loaded key from any state, compares the
checksum of the plain body with the announced value; an empty body matches exactly when both header bytes are 0. -/
def Obligations.FrameVerdictComparesChecksums : Prop :=
  ∀ (s : State) (k h l : Byte) (bs : List Byte), s.Keyed k →
    let P := bs.map (fun b => unswizzle b k)
    let u := s.afterAll (rxUnit 2 (h :: l :: bs))
    u.rxsum = cksum P ∧ u.ckexp = h ++ l ∧
    u.verdict = (if cksum P = h ++ l then .matched else .mismatch) ∧
    (bs = [] → (u.verdict = .matched ↔ h = 0 ∧ l = 0))

/-- A frame that carries the checksum of its payload, swizzled under the loaded key, always ends MATCH and delivers the payload's
tokens (`43_rx_framer.md` rule R132 (1)). -/
def Obligations.ChecksummedFrameEndsMatch : Prop :=
  ∀ (s : State) (k : Byte) (P : List Byte), s.Keyed k →
    let u := s.afterAll (rxUnit 2 (packetFrame P k))
    u.verdict = .matched ∧ u.rxsum = cksum P ∧ u.ckexp = cksum P ∧ u.rxph = .closed ∧
    u.res = (swizzle Config.ackToken k).setWidth 40 ∧ u.rlen = 1 ∧
    (((s.after (.rxopen 2)).trace (rxStr (packetFrame P k))).drop 2).map State.token = pureTokens P

/-- Exactly one byte of such a frame changed in transit gives MISMATCH (`43_rx_framer.md` rule R132 (2)). -/
def Obligations.OneChangedByteEndsMismatch : Prop :=
  ∀ (s : State) (k : Byte) (P : List Byte) (n : Nat) (c : Byte), s.Keyed k →
    n < (packetFrame P k).length → (packetFrame P k)[n]? ≠ some c →
    (s.afterAll (rxUnit 2 ((packetFrame P k).set n c))).verdict = .mismatch

/-! ## The transmit path -/

/-- Rule R135: TXOPEN. -/
def Obligations.TxopenClearsTransmitSum : Prop :=
  decode 0x380000000000#48 = .ok .txopen ∧
  ∀ s : State, exec .txopen s = .next { s with txsum := 0, res := 0, rlen := 0, lasterr := 0 }

/-- Rule R136: TXB returns the wire byte and sums the plain byte. -/
def Obligations.TxbReturnsWireByteAndSumsPlain : Prop :=
  ∀ (p : Byte) (s : State),
    decode (0x39#8 ++ 0#32 ++ p) = .ok (.txb p) ∧
    (s.keyv = true → exec (.txb p) s =
      .next { s with res := (s.fwdAt p).setWidth 40, rlen := 1,
                     txsum := BitVec.ofNat 16 ((s.txsum.toNat + p.toNat) % 65536), lasterr := 0 }) ∧
    (s.keyv = false → exec (.txb p) s = .next (s.faultedWith 2)) ∧
    (∀ m, s.Keyed m → s.fwdAt p = swizzle p m)

/-- Rule R137: TXCK returns the two checksum bytes, high byte first, and keeps the sum. -/
def Obligations.TxckReturnsChecksumBytes : Prop :=
  decode 0x3A0000000000#48 = .ok .txck ∧
  ∀ s : State, ∃ r : Word40,
    exec .txck s = .next { s with res := r, rlen := 2, lasterr := 0 } ∧
    r.toNat = s.txsum.toNat ∧ unpackBytes 2 r = [s.txsum.extractLsb' 8 8, s.txsum.extractLsb' 0 8]

/-- Rule R139: what the transmit path yields for a payload under a loaded key is its packet frame; received as one FRAMED unit by any
block with the same key, that frame matches and delivers the payload. -/
def Obligations.TransmitPathBuildsFrame : Prop :=
  ∀ (s r : State) (k : Byte) (P : List Byte), s.Keyed k → r.Keyed k →
    let wire := ((s.after .txopen).trace (txStr P)).map (fun t => resByte 0 t.res)
    let c := s.afterAll (txFrame P)
    let frame := c.txsum.extractLsb' 8 8 :: c.txsum.extractLsb' 0 8 :: wire
    wire = P.map (fun p => swizzle p k) ∧ c.txsum = cksum P ∧ c.rlen = 2 ∧
    unpackBytes 2 c.res ++ wire = frame ∧ frame = packetFrame P k ∧
    (r.afterAll (rxUnit 2 frame)).verdict = .matched ∧
    (((r.after (.rxopen 2)).trace (rxStr frame)).drop 2).map (fun t => resByte 0 t.res) = P

/-- The two paths share only the tables and the result: a transmit operation changes no receive register, a receive operation not
`TXSUM`, and neither path's outcome depends on the other's registers (`44_tx_packer.md` rule R138). -/
def Obligations.ReceiveAndTransmitPathsAreIndependent : Prop :=
  (∀ (i : Instr) (s t : State), isTransmit i = true → exec i s = .next t →
    t = { s with txsum := t.txsum, res := t.res, rlen := t.rlen, lasterr := t.lasterr, err := t.err }) ∧
  (∀ (i : Instr) (s t : State) (x : Word16), isReceive i = true → exec i s = .next t →
    t.txsum = s.txsum ∧ exec i { s with txsum := x } = .next { t with txsum := x }) ∧
  (∀ (i : Instr) (s t : State) (m : RxMode) (ph : RxPhase) (c x l q : Word16) (v : Verdict) (n f o u : Bool),
    isTransmit i = true → exec i s = .next t →
    exec i { s with rxm := m, rxph := ph, ckexp := c, rxsum := x, clen := l, prevlen := q, verdict := v,
                    incmd := n, soc := f, orph := o, orphs := u }
      = .next { t with rxm := m, rxph := ph, ckexp := c, rxsum := x, clen := l, prevlen := q, verdict := v,
                       incmd := n, soc := f, orph := o, orphs := u })

/-! ## The whole machine -/

/-- Rule R39: the state after reset, at power-on and after the reset input from any state. Nothing is said of `MAGIC` or the tables,
which the spec leaves unspecified. -/
def Obligations.ResetLeavesSpecifiedRegisters : Prop :=
  let asSpecified : State → Prop := fun t =>
    t.keyv = false ∧ t.res = 0 ∧ t.rlen = 0 ∧ t.incmd = false ∧ t.soc = false ∧ t.orph = false ∧ t.orphs = false ∧
    t.nc = false ∧ t.rxm = .plain ∧ t.rxph = .closed ∧ t.ckexp = 0 ∧ t.rxsum = 0 ∧ t.clen = 0 ∧ t.prevlen = 0 ∧
    t.verdict = .noVerdict ∧ t.txsum = 0 ∧ t.lasterr = 0 ∧ t.err = 0 ∧ t.status = 0x0000#16
  asSpecified State.reset ∧ ∀ s : State, asSpecified s.hostReset

/-- The invariants of `10_state.md` rule R38 hold after reset. -/
def Obligations.InvariantsHoldAtReset : Prop :=
  State.reset.Inv ∧ State.reset.TableForm ∧ State.reset.FaultForm ∧ State.reset.UnitForm

/-- The invariants of `10_state.md` rule R38 are kept by every step of the machine. -/
def Obligations.StepKeepsRegisterInvariants : Prop :=
  ∀ s t : State, s.Inv → step s = .next t → t.Inv

/-- The tables stay in canonical form, every listed index below 256 (`20_memory.md` rules R40, R41). -/
def Obligations.StepKeepsTablesCanonical : Prop :=
  ∀ s t : State, s.TableForm → step s = .next t → t.TableForm

/-- The fault registers keep to the codes of `60_exceptions.md` rule R144, and a standing fault is in `ERR`. -/
def Obligations.StepKeepsFaultRegistersLegal : Prop :=
  ∀ s t : State, s.FaultForm → step s = .next t → t.FaultForm

/-- A verdict on a frame stays true of the two sums until the next RXOPEN or reset (`10_state.md` rules R27, R29), and no length is
reported while a header is read (`43_rx_framer.md` rule R126). -/
def Obligations.StepKeepsVerdictTrueOfSums : Prop :=
  ∀ s t : State, s.UnitForm → step s = .next t → t.UnitForm

/-- When the host's next action is a word that decodes, the step is its instruction's, with that action no longer to come; when it
is a word that does not, the step faults `IllegalOp` (`30_encoding.md` rule R74); when it is a reset, the step is the reset
(`70_reset_and_hazards.md` rule R164). That the host's actions stand in a list of the state is the model's form (log 1). -/
def Obligations.StepRunsIssuedWord : Prop :=
  ∀ (s : State) (rest : List HostAction),
    (∀ (w : OpWord) (i : Instr), s.input = .word w :: rest → decode w = .ok i →
      step s = exec i { s with input := rest }) ∧
    (∀ (w : OpWord) (r : Reject), s.input = .word w :: rest → decode w = .error r →
      step s = .next ({ s with input := rest }.faultedWith 1)) ∧
    (s.input = .reset :: rest → step s = .next { s with input := rest }.hostReset)

/-- Rule R33: the `STATUS` view, bit by bit; and the code that each value of `VERDICT`, `RXM` and `RXPH` reads as there
(`10_state.md` rules R29, R23, R25). -/
def Obligations.StatusGathersFlagsAndFields : Prop :=
  ∀ s : State,
    s.status.getLsbD 0 = s.keyv ∧ s.status.getLsbD 1 = s.incmd ∧ s.status.getLsbD 2 = s.soc ∧
    s.status.getLsbD 3 = s.orph ∧ s.status.getLsbD 4 = s.orphs ∧ s.status.getLsbD 5 = s.nc ∧
    s.status.extractLsb' 6 2 = s.verdict.bits ∧ s.status.extractLsb' 8 2 = s.rxm.bits ∧
    s.status.extractLsb' 10 2 = s.rxph.bits ∧ s.status.extractLsb' 12 4 = 0 ∧
    (s.status.extractLsb' 6 2 = 0#2 ↔ s.verdict = .noVerdict) ∧ (s.status.extractLsb' 6 2 = 1#2 ↔ s.verdict = .matched) ∧
    (s.status.extractLsb' 6 2 = 2#2 ↔ s.verdict = .mismatch) ∧ (s.status.extractLsb' 6 2 = 3#2 ↔ s.verdict = .short) ∧
    (s.status.extractLsb' 8 2 = 0#2 ↔ s.rxm = .plain) ∧ (s.status.extractLsb' 8 2 = 1#2 ↔ s.rxm = .unframed) ∧
    (s.status.extractLsb' 8 2 = 2#2 ↔ s.rxm = .framed) ∧
    (s.status.extractLsb' 10 2 = 0#2 ↔ s.rxph = .closed) ∧ (s.status.extractLsb' 10 2 = 1#2 ↔ s.rxph = .hdr0) ∧
    (s.status.extractLsb' 10 2 = 2#2 ↔ s.rxph = .hdr1) ∧ (s.status.extractLsb' 10 2 = 3#2 ↔ s.rxph = .body)

/-- A host register read returns the numbered register zero-extended and changes no register; without an action the block keeps its
state (`10_state.md` rules R34, R35, `60_exceptions.md` rule R163). Of a read of `MAGIC` while `KEYV = 0` only that it returns
a byte is said (log 3). The last clause counts the model's own draws. -/
def Obligations.HostReadsReturnRegistersAndChangeNone : Prop :=
  ∀ s : State,
    (s.input = [] → step s = .next s) ∧
    (∀ (n : BitVec 4) (rest : List HostAction), s.input = .readReg n :: rest →
      ∃ (v : Word40) (d : Nat),
        step s = .next { s with input := rest, readOut := some v, draws := d } ∧
        (n = 0 → v.toNat = s.status.toNat) ∧ (n = 1 → v.toNat = s.err.toNat) ∧ (n = 2 → v.toNat = s.lasterr.toNat) ∧
        (n = 3 → s.keyv = true → v.toNat = s.magic.toNat) ∧ (n = 3 → v.toNat < 256) ∧
        (n = 4 → v = s.res) ∧ (n = 5 → v.toNat = s.rlen.toNat) ∧ (n = 6 → v.toNat = s.ckexp.toNat) ∧
        (n = 7 → v.toNat = s.rxsum.toNat) ∧ (n = 8 → v.toNat = s.txsum.toNat) ∧ (n = 9 → v.toNat = s.clen.toNat) ∧
        (n = 10 → v.toNat = s.prevlen.toNat) ∧ (11 ≤ n.toNat → v = 0) ∧
        (d = s.draws ∨ n = 3 ∧ s.keyv = false))

/-- Which operations can change each register (`10_state.md` rule R34, column "written by"; rules R15 to R32), and that no operation
touches what is the host's. -/
def Obligations.RegistersChangeOnlyByTheirWriters : Prop :=
  ∀ (i : Instr) (s t : State), exec i s = .next t →
    ((t.res ≠ s.res ∨ t.rlen ≠ s.rlen) → t.lasterr = 0 ∧ i ≠ .nop ∧ i ≠ .errack) ∧
    (t.magic ≠ s.magic → ∃ k, i = .setkey k) ∧
    (t.rxm ≠ s.rxm → ∃ m, i = .rxopen m) ∧
    (t.ckexp ≠ s.ckexp → (∃ m, i = .rxopen m) ∨ ∃ b, i = .rxb b ∧ (s.rxph = .hdr0 ∨ s.rxph = .hdr1)) ∧
    (t.rxsum ≠ s.rxsum → (∃ m, i = .rxopen m) ∨ ∃ b, i = .rxb b ∧ s.rxph = .body) ∧
    (t.txsum ≠ s.txsum → i = .txopen ∨ ∃ p, i = .txb p) ∧
    (t.clen ≠ s.clen → (∃ m, i = .rxopen m) ∨ (∃ b, i = .rxb b ∧ s.rxph = .body) ∨ i = .rxend) ∧
    (t.prevlen ≠ s.prevlen → (∃ m, i = .rxopen m) ∨ s.startsRun i ∨ i = .rxend) ∧
    (t.verdict ≠ s.verdict → (∃ m, i = .rxopen m) ∨ i = .rxend) ∧
    (t.err ≠ s.err → t.lasterr ≠ 0 ∨ i = .errack) ∧
    (t.input = s.input ∧ t.readOut = s.readOut ∧ t.draws = s.draws)
end

