-- ==== Sys2Proof/Laws/Encoding.lean ====
section
/-! SUPPORT. What selecting a row of the opcode map means in numbers, and the number an encoded word is
(`30_encoding.md` rules R65 to R73). -/

namespace Sys2Proof

/-- A word agrees with a match value under a mask of leading ones exactly when they agree above the operand bits. -/
theorem and_high_mask (k : Nat) (w p : OpWord) (hp : p &&& (BitVec.allOnes 48 <<< k) = p) :
    w &&& (BitVec.allOnes 48 <<< k) = p ↔ w.toNat / 2 ^ k = p.toNat / 2 ^ k := by
  have hs : ∀ x : OpWord, x &&& (BitVec.allOnes 48 <<< k) = (x >>> k) <<< k := by
    intro x
    ext i hi
    simp only [BitVec.getElem_and, BitVec.getElem_shiftLeft, BitVec.getElem_allOnes]
    by_cases h : i < k
    · simp [h]
    · simp [h, show k + (i - k) = i by omega, BitVec.getLsbD_eq_getElem hi]
  have hn : ∀ x : OpWord, ((x >>> k) <<< k).toNat = x.toNat / 2 ^ k * 2 ^ k := by
    intro x
    rw [BitVec.toNat_shiftLeft, BitVec.toNat_ushiftRight, Nat.shiftRight_eq_div_pow, Nat.shiftLeft_eq]
    exact Nat.mod_eq_of_lt (Nat.lt_of_le_of_lt (Nat.div_mul_le_self _ _) x.isLt)
  rw [hs] at hp ⊢
  have hpow : 0 < 2 ^ k := Nat.two_pow_pos k
  constructor
  · intro h
    have := congrArg BitVec.toNat h
    rw [hn] at this
    rw [← this, Nat.mul_div_cancel _ hpow]
  · intro h
    apply BitVec.eq_of_toNat_eq
    rw [← hp, hn, hn, h]

/-- How many operand bits a format leaves free (rules R66 to R72). -/
def Format.operandBits : Format → Nat
  | .z => 0
  | .b => 8
  | .m => 2
  | .v => 35
  | .s => 32
  | .g2 => 16
  | .g5 => 40

/-- A row whose mask leaves exactly its format's operand bits free and whose match value sets none of them. -/
def OpRow.regular (r : OpRow) : Bool :=
  r.mask == BitVec.allOnes 48 <<< r.format.operandBits && r.pattern &&& r.mask == r.pattern

/-- Every row of the opcode map is regular. -/
theorem opcodeMap_regular : opcodeMap.all OpRow.regular = true := by decide

/-- A regular row selects the words that agree with its match value above the operand bits. -/
theorem OpRow.selects_iff (r : OpRow) (hr : r.regular = true) (w : OpWord) :
    r.selects w = true ↔ w.toNat / 2 ^ r.format.operandBits = r.pattern.toNat / 2 ^ r.format.operandBits := by
  simp only [OpRow.regular, Bool.and_eq_true, beq_iff_eq] at hr
  obtain ⟨hm, hp⟩ := hr
  rw [hm] at hp
  rw [OpRow.selects, beq_iff_eq, hm]
  exact and_high_mask _ w _ hp

/-! ## Encoded words as numbers -/

/-- Appending puts the left part above the right part. -/
theorem toNat_append_add {m n : Nat} (x : BitVec m) (y : BitVec n) :
    (x ++ y).toNat = x.toNat * 2 ^ n + y.toNat := by
  rw [BitVec.toNat_append, Nat.shiftLeft_eq, Nat.mul_comm, Nat.two_pow_add_eq_or_of_lt y.isLt]

theorem wordZ_toNat (op : Byte) : (wordZ op).toNat = op.toNat * 2 ^ 40 := by
  simp only [wordZ, toNat_append_add, BitVec.toNat_ofNat]
  omega

theorem wordB_toNat (op b : Byte) : (wordB op b).toNat = op.toNat * 2 ^ 40 + b.toNat := by
  simp only [wordB, toNat_append_add, BitVec.toNat_ofNat]
  omega

theorem wordM_toNat (op : Byte) (m : BitVec 2) : (wordM op m).toNat = op.toNat * 2 ^ 40 + m.toNat := by
  simp only [wordM, toNat_append_add, BitVec.toNat_ofNat]
  omega

theorem wordV_toNat (op : Byte) (v : BitVec 35) : (wordV op v).toNat = op.toNat * 2 ^ 40 + v.toNat := by
  simp only [wordV, toNat_append_add, BitVec.toNat_ofNat]
  omega

theorem wordS_toNat (op : Byte) (x : BitVec 32) : (wordS op x).toNat = op.toNat * 2 ^ 40 + x.toNat := by
  simp only [wordS, toNat_append_add, BitVec.toNat_ofNat]
  omega

theorem wordG2_toNat (op g0 g1 : Byte) :
    (wordG2 op g0 g1).toNat = op.toNat * 2 ^ 40 + g0.toNat * 2 ^ 8 + g1.toNat := by
  simp only [wordG2, toNat_append_add, BitVec.toNat_ofNat]
  omega

theorem wordG5_toNat (op g0 g1 g2 g3 g4 : Byte) :
    (wordG5 op g0 g1 g2 g3 g4).toNat = op.toNat * 2 ^ 40 + g0.toNat * 2 ^ 32 + g1.toNat * 2 ^ 24
      + g2.toNat * 2 ^ 16 + g3.toNat * 2 ^ 8 + g4.toNat := by
  simp only [wordG5, toNat_append_add]
  omega

/-- The number a field of consecutive bits is. -/
theorem toNat_slice {m : Nat} (w : BitVec m) (lo n : Nat) :
    (w.extractLsb' lo n).toNat = w.toNat / 2 ^ lo % 2 ^ n := by
  rw [BitVec.extractLsb'_toNat, Nat.shiftRight_eq_div_pow]

/-! ## A word is made of its own fields

In each lemma the hypothesis is what selecting a row of that format says (`OpRow.selects_iff`). -/

theorem wordZ_of_fields (op : Byte) (w : OpWord) (h : w.toNat / 2 ^ 0 = op.toNat * 2 ^ 40 / 2 ^ 0) : wordZ op = w := by
  apply BitVec.eq_of_toNat_eq
  rw [wordZ_toNat]
  omega

theorem wordB_of_fields (op : Byte) (w : OpWord) (h : w.toNat / 2 ^ 8 = op.toNat * 2 ^ 40 / 2 ^ 8) :
    wordB op (fieldB w) = w := by
  apply BitVec.eq_of_toNat_eq
  rw [wordB_toNat, fieldB, toNat_slice]
  omega

theorem wordM_of_fields (op : Byte) (w : OpWord) (h : w.toNat / 2 ^ 2 = op.toNat * 2 ^ 40 / 2 ^ 2) :
    wordM op (fieldM w) = w := by
  apply BitVec.eq_of_toNat_eq
  rw [wordM_toNat, fieldM, toNat_slice]
  omega

theorem wordV_of_fields (op : Byte) (w : OpWord) (h : w.toNat / 2 ^ 35 = op.toNat * 2 ^ 40 / 2 ^ 35) :
    wordV op (fieldV w) = w := by
  apply BitVec.eq_of_toNat_eq
  rw [wordV_toNat, fieldV, toNat_slice]
  omega

theorem wordS_of_fields (op : Byte) (w : OpWord) (h : w.toNat / 2 ^ 32 = op.toNat * 2 ^ 40 / 2 ^ 32) :
    wordS op (fieldS w) = w := by
  apply BitVec.eq_of_toNat_eq
  rw [wordS_toNat, fieldS, toNat_slice]
  omega

theorem wordG2_of_fields (op : Byte) (w : OpWord) (h : w.toNat / 2 ^ 16 = op.toNat * 2 ^ 40 / 2 ^ 16) :
    wordG2 op (fieldG 1 w) (fieldG 0 w) = w := by
  apply BitVec.eq_of_toNat_eq
  rw [wordG2_toNat]
  simp only [fieldG, toNat_slice]
  norm_num at *
  omega

theorem wordG5_of_fields (op : Byte) (w : OpWord) (h : w.toNat / 2 ^ 40 = op.toNat * 2 ^ 40 / 2 ^ 40) :
    wordG5 op (fieldG 4 w) (fieldG 3 w) (fieldG 2 w) (fieldG 1 w) (fieldG 0 w) = w := by
  apply BitVec.eq_of_toNat_eq
  rw [wordG5_toNat]
  simp only [fieldG, toNat_slice]
  norm_num at *
  omega

/-! ## The rows of the map -/

/-- What holds of the rows of every family holds of every row. -/
theorem opcodeMap_cases {r : OpRow} (hr : r ∈ opcodeMap) (P : OpRow → Prop) (hsys : ∀ r ∈ systemRows, P r)
    (hswz : ∀ r ∈ swizzleRows, P r) (hcod : ∀ r ∈ codecRows, P r) (hrx : ∀ r ∈ receiveRows, P r)
    (htx : ∀ r ∈ transmitRows, P r) : P r := by
  simp only [opcodeMap, List.mem_append] at hr
  rcases hr with (((hr | hr) | hr) | hr) | hr
  · exact hsys r hr
  · exact hswz r hr
  · exact hcod r hr
  · exact hrx r hr
  · exact htx r hr

/-- A word that selects a row has the row's `OP`. -/
theorem OpRow.selects_op {r : OpRow} (hr : r ∈ opcodeMap) {w : OpWord} (h : r.selects w = true) :
    w.toNat / 2 ^ 40 = r.pattern.toNat / 2 ^ 40 := by
  have h1 := (r.selects_iff (List.all_eq_true.1 opcodeMap_regular _ hr) w).1 h
  have hk : r.format.operandBits ≤ 40 := by cases r.format <;> decide
  obtain ⟨d, hd⟩ := Nat.exists_eq_add_of_le hk
  rw [hd, Nat.pow_add, ← Nat.div_div_eq_div_mul, ← Nat.div_div_eq_div_mul, h1]

/-- The `OP` values of the map are distinct. -/
theorem opcodeMap_ops_distinct :
    opcodeMap.Pairwise (fun r r' => r.pattern.toNat / 2 ^ 40 ≠ r'.pattern.toNat / 2 ^ 40) := by
  have h : (opcodeMap.map (fun r => r.pattern.toNat / 2 ^ 40)).Pairwise (· ≠ ·) := by decide
  exact List.pairwise_map.1 h

/-- What decodes is what a selected row builds. -/
theorem decode_ok {w : OpWord} {i : Instr} (h : decode w = .ok i) :
    ∃ r ∈ opcodeMap, r.selects w = true ∧ i = r.build w := by
  unfold decode at h
  split at h
  · rename_i r hr
    exact ⟨r, List.mem_of_find?_eq_some hr, List.find?_some (p := fun r : OpRow => r.selects w) hr,
      (Except.ok.inj h).symm⟩
  · cases h

/-- A word decodes or is rejected. -/
theorem decode_error_of_not_ok {w : OpWord} (h : ¬ ∃ i, decode w = .ok i) : ∃ r, decode w = .error r := by
  cases hd : decode w with
  | ok i => exact absurd ⟨i, hd⟩ h
  | error r => exact ⟨r, rfl⟩

end Sys2Proof
end

