-- ==== Sys2Proof/Laws/State.lean ====
section
/-! SUPPORT. What every field holds after every named update of `Machine/Ops.lean` and `Machine/Port.lean`, and what a table
read gives after an update that leaves the tables alone. -/

namespace Sys2Proof.Machine.State

variable (s : State)

/-! ## loadKey -/

@[simp] theorem loadKey_magic (k : Byte) : (s.loadKey k).magic = k := rfl
@[simp] theorem loadKey_keyv (k : Byte) : (s.loadKey k).keyv = true := rfl
@[simp] theorem loadKey_fwd (k : Byte) : (s.loadKey k).fwd = s.fwd.rewrite (fun b => swizzle b k) := by
  simp only [State.loadKey]
@[simp] theorem loadKey_inv (k : Byte) : (s.loadKey k).inv = s.inv.rewrite (fun c => unswizzle c k) := by
  simp only [State.loadKey]
@[simp] theorem loadKey_res (k : Byte) : (s.loadKey k).res = s.res := rfl
@[simp] theorem loadKey_rlen (k : Byte) : (s.loadKey k).rlen = s.rlen := rfl
@[simp] theorem loadKey_incmd (k : Byte) : (s.loadKey k).incmd = s.incmd := rfl
@[simp] theorem loadKey_soc (k : Byte) : (s.loadKey k).soc = s.soc := rfl
@[simp] theorem loadKey_orph (k : Byte) : (s.loadKey k).orph = s.orph := rfl
@[simp] theorem loadKey_orphs (k : Byte) : (s.loadKey k).orphs = s.orphs := rfl
@[simp] theorem loadKey_nc (k : Byte) : (s.loadKey k).nc = s.nc := rfl
@[simp] theorem loadKey_rxm (k : Byte) : (s.loadKey k).rxm = s.rxm := rfl
@[simp] theorem loadKey_rxph (k : Byte) : (s.loadKey k).rxph = s.rxph := rfl
@[simp] theorem loadKey_ckexp (k : Byte) : (s.loadKey k).ckexp = s.ckexp := rfl
@[simp] theorem loadKey_rxsum (k : Byte) : (s.loadKey k).rxsum = s.rxsum := rfl
@[simp] theorem loadKey_clen (k : Byte) : (s.loadKey k).clen = s.clen := rfl
@[simp] theorem loadKey_prevlen (k : Byte) : (s.loadKey k).prevlen = s.prevlen := rfl
@[simp] theorem loadKey_verdict (k : Byte) : (s.loadKey k).verdict = s.verdict := rfl
@[simp] theorem loadKey_txsum (k : Byte) : (s.loadKey k).txsum = s.txsum := rfl
@[simp] theorem loadKey_lasterr (k : Byte) : (s.loadKey k).lasterr = s.lasterr := rfl
@[simp] theorem loadKey_err (k : Byte) : (s.loadKey k).err = s.err := rfl
@[simp] theorem loadKey_input (k : Byte) : (s.loadKey k).input = s.input := rfl
@[simp] theorem loadKey_readOut (k : Byte) : (s.loadKey k).readOut = s.readOut := rfl
@[simp] theorem loadKey_draws (k : Byte) : (s.loadKey k).draws = s.draws := rfl

/-! ## endOk -/

@[simp] theorem endOk_magic : s.endOk.magic = s.magic := rfl
@[simp] theorem endOk_keyv : s.endOk.keyv = s.keyv := rfl
@[simp] theorem endOk_fwd : s.endOk.fwd = s.fwd := rfl
@[simp] theorem endOk_inv : s.endOk.inv = s.inv := rfl
@[simp] theorem endOk_res : s.endOk.res = s.res := rfl
@[simp] theorem endOk_rlen : s.endOk.rlen = s.rlen := rfl
@[simp] theorem endOk_incmd : s.endOk.incmd = s.incmd := rfl
@[simp] theorem endOk_soc : s.endOk.soc = s.soc := rfl
@[simp] theorem endOk_orph : s.endOk.orph = s.orph := rfl
@[simp] theorem endOk_orphs : s.endOk.orphs = s.orphs := rfl
@[simp] theorem endOk_nc : s.endOk.nc = s.nc := rfl
@[simp] theorem endOk_rxm : s.endOk.rxm = s.rxm := rfl
@[simp] theorem endOk_rxph : s.endOk.rxph = s.rxph := rfl
@[simp] theorem endOk_ckexp : s.endOk.ckexp = s.ckexp := rfl
@[simp] theorem endOk_rxsum : s.endOk.rxsum = s.rxsum := rfl
@[simp] theorem endOk_clen : s.endOk.clen = s.clen := rfl
@[simp] theorem endOk_prevlen : s.endOk.prevlen = s.prevlen := rfl
@[simp] theorem endOk_verdict : s.endOk.verdict = s.verdict := rfl
@[simp] theorem endOk_txsum : s.endOk.txsum = s.txsum := rfl
@[simp] theorem endOk_lasterr : s.endOk.lasterr = 0 := rfl
@[simp] theorem endOk_err : s.endOk.err = s.err := rfl
@[simp] theorem endOk_input : s.endOk.input = s.input := rfl
@[simp] theorem endOk_readOut : s.endOk.readOut = s.readOut := rfl
@[simp] theorem endOk_draws : s.endOk.draws = s.draws := rfl
@[simp] theorem endOk_fwdAt (i : Byte) : s.endOk.fwdAt i = s.fwdAt i := rfl
@[simp] theorem endOk_invAt (i : Byte) : s.endOk.invAt i = s.invAt i := rfl

/-! ## result -/

@[simp] theorem result_magic (r : Word40) (n : BitVec 3) : (s.result r n).magic = s.magic := rfl
@[simp] theorem result_keyv (r : Word40) (n : BitVec 3) : (s.result r n).keyv = s.keyv := rfl
@[simp] theorem result_fwd (r : Word40) (n : BitVec 3) : (s.result r n).fwd = s.fwd := rfl
@[simp] theorem result_inv (r : Word40) (n : BitVec 3) : (s.result r n).inv = s.inv := rfl
@[simp] theorem result_res (r : Word40) (n : BitVec 3) : (s.result r n).res = r := rfl
@[simp] theorem result_rlen (r : Word40) (n : BitVec 3) : (s.result r n).rlen = n := rfl
@[simp] theorem result_incmd (r : Word40) (n : BitVec 3) : (s.result r n).incmd = s.incmd := rfl
@[simp] theorem result_soc (r : Word40) (n : BitVec 3) : (s.result r n).soc = s.soc := rfl
@[simp] theorem result_orph (r : Word40) (n : BitVec 3) : (s.result r n).orph = s.orph := rfl
@[simp] theorem result_orphs (r : Word40) (n : BitVec 3) : (s.result r n).orphs = s.orphs := rfl
@[simp] theorem result_nc (r : Word40) (n : BitVec 3) : (s.result r n).nc = s.nc := rfl
@[simp] theorem result_rxm (r : Word40) (n : BitVec 3) : (s.result r n).rxm = s.rxm := rfl
@[simp] theorem result_rxph (r : Word40) (n : BitVec 3) : (s.result r n).rxph = s.rxph := rfl
@[simp] theorem result_ckexp (r : Word40) (n : BitVec 3) : (s.result r n).ckexp = s.ckexp := rfl
@[simp] theorem result_rxsum (r : Word40) (n : BitVec 3) : (s.result r n).rxsum = s.rxsum := rfl
@[simp] theorem result_clen (r : Word40) (n : BitVec 3) : (s.result r n).clen = s.clen := rfl
@[simp] theorem result_prevlen (r : Word40) (n : BitVec 3) : (s.result r n).prevlen = s.prevlen := rfl
@[simp] theorem result_verdict (r : Word40) (n : BitVec 3) : (s.result r n).verdict = s.verdict := rfl
@[simp] theorem result_txsum (r : Word40) (n : BitVec 3) : (s.result r n).txsum = s.txsum := rfl
@[simp] theorem result_lasterr (r : Word40) (n : BitVec 3) : (s.result r n).lasterr = 0 := rfl
@[simp] theorem result_err (r : Word40) (n : BitVec 3) : (s.result r n).err = s.err := rfl
@[simp] theorem result_input (r : Word40) (n : BitVec 3) : (s.result r n).input = s.input := rfl
@[simp] theorem result_readOut (r : Word40) (n : BitVec 3) : (s.result r n).readOut = s.readOut := rfl
@[simp] theorem result_draws (r : Word40) (n : BitVec 3) : (s.result r n).draws = s.draws := rfl
@[simp] theorem result_fwdAt (r : Word40) (n : BitVec 3) (i : Byte) : (s.result r n).fwdAt i = s.fwdAt i := rfl
@[simp] theorem result_invAt (r : Word40) (n : BitVec 3) (i : Byte) : (s.result r n).invAt i = s.invAt i := rfl

/-! ## takeFault -/

@[simp] theorem takeFault_magic (c : FaultCode) : (s.takeFault c).magic = s.magic := rfl
@[simp] theorem takeFault_keyv (c : FaultCode) : (s.takeFault c).keyv = s.keyv := rfl
@[simp] theorem takeFault_fwd (c : FaultCode) : (s.takeFault c).fwd = s.fwd := rfl
@[simp] theorem takeFault_inv (c : FaultCode) : (s.takeFault c).inv = s.inv := rfl
@[simp] theorem takeFault_res (c : FaultCode) : (s.takeFault c).res = s.res := rfl
@[simp] theorem takeFault_rlen (c : FaultCode) : (s.takeFault c).rlen = s.rlen := rfl
@[simp] theorem takeFault_incmd (c : FaultCode) : (s.takeFault c).incmd = s.incmd := rfl
@[simp] theorem takeFault_soc (c : FaultCode) : (s.takeFault c).soc = s.soc := rfl
@[simp] theorem takeFault_orph (c : FaultCode) : (s.takeFault c).orph = s.orph := rfl
@[simp] theorem takeFault_orphs (c : FaultCode) : (s.takeFault c).orphs = s.orphs := rfl
@[simp] theorem takeFault_nc (c : FaultCode) : (s.takeFault c).nc = s.nc := rfl
@[simp] theorem takeFault_rxm (c : FaultCode) : (s.takeFault c).rxm = s.rxm := rfl
@[simp] theorem takeFault_rxph (c : FaultCode) : (s.takeFault c).rxph = s.rxph := rfl
@[simp] theorem takeFault_ckexp (c : FaultCode) : (s.takeFault c).ckexp = s.ckexp := rfl
@[simp] theorem takeFault_rxsum (c : FaultCode) : (s.takeFault c).rxsum = s.rxsum := rfl
@[simp] theorem takeFault_clen (c : FaultCode) : (s.takeFault c).clen = s.clen := rfl
@[simp] theorem takeFault_prevlen (c : FaultCode) : (s.takeFault c).prevlen = s.prevlen := rfl
@[simp] theorem takeFault_verdict (c : FaultCode) : (s.takeFault c).verdict = s.verdict := rfl
@[simp] theorem takeFault_txsum (c : FaultCode) : (s.takeFault c).txsum = s.txsum := rfl
@[simp] theorem takeFault_lasterr (c : FaultCode) : (s.takeFault c).lasterr = c.code := rfl
@[simp] theorem takeFault_err (c : FaultCode) : (s.takeFault c).err = (if s.err = 0 then c.code else s.err) := rfl
@[simp] theorem takeFault_input (c : FaultCode) : (s.takeFault c).input = s.input := rfl
@[simp] theorem takeFault_readOut (c : FaultCode) : (s.takeFault c).readOut = s.readOut := rfl
@[simp] theorem takeFault_draws (c : FaultCode) : (s.takeFault c).draws = s.draws := rfl
@[simp] theorem takeFault_fwdAt (c : FaultCode) (i : Byte) : (s.takeFault c).fwdAt i = s.fwdAt i := rfl
@[simp] theorem takeFault_invAt (c : FaultCode) (i : Byte) : (s.takeFault c).invAt i = s.invAt i := rfl

/-! ## ackFault -/

@[simp] theorem ackFault_magic : s.ackFault.magic = s.magic := rfl
@[simp] theorem ackFault_keyv : s.ackFault.keyv = s.keyv := rfl
@[simp] theorem ackFault_fwd : s.ackFault.fwd = s.fwd := rfl
@[simp] theorem ackFault_inv : s.ackFault.inv = s.inv := rfl
@[simp] theorem ackFault_res : s.ackFault.res = s.res := rfl
@[simp] theorem ackFault_rlen : s.ackFault.rlen = s.rlen := rfl
@[simp] theorem ackFault_incmd : s.ackFault.incmd = s.incmd := rfl
@[simp] theorem ackFault_soc : s.ackFault.soc = s.soc := rfl
@[simp] theorem ackFault_orph : s.ackFault.orph = s.orph := rfl
@[simp] theorem ackFault_orphs : s.ackFault.orphs = s.orphs := rfl
@[simp] theorem ackFault_nc : s.ackFault.nc = s.nc := rfl
@[simp] theorem ackFault_rxm : s.ackFault.rxm = s.rxm := rfl
@[simp] theorem ackFault_rxph : s.ackFault.rxph = s.rxph := rfl
@[simp] theorem ackFault_ckexp : s.ackFault.ckexp = s.ckexp := rfl
@[simp] theorem ackFault_rxsum : s.ackFault.rxsum = s.rxsum := rfl
@[simp] theorem ackFault_clen : s.ackFault.clen = s.clen := rfl
@[simp] theorem ackFault_prevlen : s.ackFault.prevlen = s.prevlen := rfl
@[simp] theorem ackFault_verdict : s.ackFault.verdict = s.verdict := rfl
@[simp] theorem ackFault_txsum : s.ackFault.txsum = s.txsum := rfl
@[simp] theorem ackFault_lasterr : s.ackFault.lasterr = 0 := rfl
@[simp] theorem ackFault_err : s.ackFault.err = 0 := rfl
@[simp] theorem ackFault_input : s.ackFault.input = s.input := rfl
@[simp] theorem ackFault_readOut : s.ackFault.readOut = s.readOut := rfl
@[simp] theorem ackFault_draws : s.ackFault.draws = s.draws := rfl
@[simp] theorem ackFault_fwdAt (i : Byte) : s.ackFault.fwdAt i = s.fwdAt i := rfl
@[simp] theorem ackFault_invAt (i : Byte) : s.ackFault.invAt i = s.invAt i := rfl

/-! ## openUnit -/

@[simp] theorem openUnit_magic (m : RxMode) : (s.openUnit m).magic = s.magic := rfl
@[simp] theorem openUnit_keyv (m : RxMode) : (s.openUnit m).keyv = s.keyv := rfl
@[simp] theorem openUnit_fwd (m : RxMode) : (s.openUnit m).fwd = s.fwd := rfl
@[simp] theorem openUnit_inv (m : RxMode) : (s.openUnit m).inv = s.inv := rfl
@[simp] theorem openUnit_res (m : RxMode) : (s.openUnit m).res = s.res := rfl
@[simp] theorem openUnit_rlen (m : RxMode) : (s.openUnit m).rlen = s.rlen := rfl
@[simp] theorem openUnit_incmd (m : RxMode) : (s.openUnit m).incmd = false := rfl
@[simp] theorem openUnit_soc (m : RxMode) : (s.openUnit m).soc = false := rfl
@[simp] theorem openUnit_orph (m : RxMode) : (s.openUnit m).orph = false := rfl
@[simp] theorem openUnit_orphs (m : RxMode) : (s.openUnit m).orphs = false := rfl
@[simp] theorem openUnit_nc (m : RxMode) : (s.openUnit m).nc = s.nc := rfl
@[simp] theorem openUnit_rxm (m : RxMode) : (s.openUnit m).rxm = m := rfl
@[simp] theorem openUnit_rxph (m : RxMode) : (s.openUnit m).rxph = (if m = .framed then .hdr0 else .body) := rfl
@[simp] theorem openUnit_ckexp (m : RxMode) : (s.openUnit m).ckexp = 0 := rfl
@[simp] theorem openUnit_rxsum (m : RxMode) : (s.openUnit m).rxsum = 0 := rfl
@[simp] theorem openUnit_clen (m : RxMode) : (s.openUnit m).clen = 0 := rfl
@[simp] theorem openUnit_prevlen (m : RxMode) : (s.openUnit m).prevlen = 0 := rfl
@[simp] theorem openUnit_verdict (m : RxMode) : (s.openUnit m).verdict = .noVerdict := rfl
@[simp] theorem openUnit_txsum (m : RxMode) : (s.openUnit m).txsum = s.txsum := rfl
@[simp] theorem openUnit_lasterr (m : RxMode) : (s.openUnit m).lasterr = s.lasterr := rfl
@[simp] theorem openUnit_err (m : RxMode) : (s.openUnit m).err = s.err := rfl
@[simp] theorem openUnit_input (m : RxMode) : (s.openUnit m).input = s.input := rfl
@[simp] theorem openUnit_readOut (m : RxMode) : (s.openUnit m).readOut = s.readOut := rfl
@[simp] theorem openUnit_draws (m : RxMode) : (s.openUnit m).draws = s.draws := rfl
@[simp] theorem openUnit_fwdAt (m : RxMode) (i : Byte) : (s.openUnit m).fwdAt i = s.fwdAt i := rfl
@[simp] theorem openUnit_invAt (m : RxMode) (i : Byte) : (s.openUnit m).invAt i = s.invAt i := rfl

/-! ## headerHigh -/

@[simp] theorem headerHigh_magic (b : Byte) : (s.headerHigh b).magic = s.magic := rfl
@[simp] theorem headerHigh_keyv (b : Byte) : (s.headerHigh b).keyv = s.keyv := rfl
@[simp] theorem headerHigh_fwd (b : Byte) : (s.headerHigh b).fwd = s.fwd := rfl
@[simp] theorem headerHigh_inv (b : Byte) : (s.headerHigh b).inv = s.inv := rfl
@[simp] theorem headerHigh_res (b : Byte) : (s.headerHigh b).res = s.res := rfl
@[simp] theorem headerHigh_rlen (b : Byte) : (s.headerHigh b).rlen = s.rlen := rfl
@[simp] theorem headerHigh_incmd (b : Byte) : (s.headerHigh b).incmd = s.incmd := rfl
@[simp] theorem headerHigh_soc (b : Byte) : (s.headerHigh b).soc = s.soc := rfl
@[simp] theorem headerHigh_orph (b : Byte) : (s.headerHigh b).orph = s.orph := rfl
@[simp] theorem headerHigh_orphs (b : Byte) : (s.headerHigh b).orphs = s.orphs := rfl
@[simp] theorem headerHigh_nc (b : Byte) : (s.headerHigh b).nc = s.nc := rfl
@[simp] theorem headerHigh_rxm (b : Byte) : (s.headerHigh b).rxm = s.rxm := rfl
@[simp] theorem headerHigh_rxph (b : Byte) : (s.headerHigh b).rxph = .hdr1 := rfl
@[simp] theorem headerHigh_ckexp (b : Byte) : (s.headerHigh b).ckexp = b ++ s.ckexp.extractLsb' 0 8 := rfl
@[simp] theorem headerHigh_rxsum (b : Byte) : (s.headerHigh b).rxsum = s.rxsum := rfl
@[simp] theorem headerHigh_clen (b : Byte) : (s.headerHigh b).clen = s.clen := rfl
@[simp] theorem headerHigh_prevlen (b : Byte) : (s.headerHigh b).prevlen = s.prevlen := rfl
@[simp] theorem headerHigh_verdict (b : Byte) : (s.headerHigh b).verdict = s.verdict := rfl
@[simp] theorem headerHigh_txsum (b : Byte) : (s.headerHigh b).txsum = s.txsum := rfl
@[simp] theorem headerHigh_lasterr (b : Byte) : (s.headerHigh b).lasterr = s.lasterr := rfl
@[simp] theorem headerHigh_err (b : Byte) : (s.headerHigh b).err = s.err := rfl
@[simp] theorem headerHigh_input (b : Byte) : (s.headerHigh b).input = s.input := rfl
@[simp] theorem headerHigh_readOut (b : Byte) : (s.headerHigh b).readOut = s.readOut := rfl
@[simp] theorem headerHigh_draws (b : Byte) : (s.headerHigh b).draws = s.draws := rfl
@[simp] theorem headerHigh_fwdAt (b : Byte) (i : Byte) : (s.headerHigh b).fwdAt i = s.fwdAt i := rfl
@[simp] theorem headerHigh_invAt (b : Byte) (i : Byte) : (s.headerHigh b).invAt i = s.invAt i := rfl

/-! ## headerLow -/

@[simp] theorem headerLow_magic (b : Byte) : (s.headerLow b).magic = s.magic := rfl
@[simp] theorem headerLow_keyv (b : Byte) : (s.headerLow b).keyv = s.keyv := rfl
@[simp] theorem headerLow_fwd (b : Byte) : (s.headerLow b).fwd = s.fwd := rfl
@[simp] theorem headerLow_inv (b : Byte) : (s.headerLow b).inv = s.inv := rfl
@[simp] theorem headerLow_res (b : Byte) : (s.headerLow b).res = s.res := rfl
@[simp] theorem headerLow_rlen (b : Byte) : (s.headerLow b).rlen = s.rlen := rfl
@[simp] theorem headerLow_incmd (b : Byte) : (s.headerLow b).incmd = s.incmd := rfl
@[simp] theorem headerLow_soc (b : Byte) : (s.headerLow b).soc = s.soc := rfl
@[simp] theorem headerLow_orph (b : Byte) : (s.headerLow b).orph = s.orph := rfl
@[simp] theorem headerLow_orphs (b : Byte) : (s.headerLow b).orphs = s.orphs := rfl
@[simp] theorem headerLow_nc (b : Byte) : (s.headerLow b).nc = s.nc := rfl
@[simp] theorem headerLow_rxm (b : Byte) : (s.headerLow b).rxm = s.rxm := rfl
@[simp] theorem headerLow_rxph (b : Byte) : (s.headerLow b).rxph = .body := rfl
@[simp] theorem headerLow_ckexp (b : Byte) : (s.headerLow b).ckexp = s.ckexp.extractLsb' 8 8 ++ b := rfl
@[simp] theorem headerLow_rxsum (b : Byte) : (s.headerLow b).rxsum = s.rxsum := rfl
@[simp] theorem headerLow_clen (b : Byte) : (s.headerLow b).clen = s.clen := rfl
@[simp] theorem headerLow_prevlen (b : Byte) : (s.headerLow b).prevlen = s.prevlen := rfl
@[simp] theorem headerLow_verdict (b : Byte) : (s.headerLow b).verdict = s.verdict := rfl
@[simp] theorem headerLow_txsum (b : Byte) : (s.headerLow b).txsum = s.txsum := rfl
@[simp] theorem headerLow_lasterr (b : Byte) : (s.headerLow b).lasterr = s.lasterr := rfl
@[simp] theorem headerLow_err (b : Byte) : (s.headerLow b).err = s.err := rfl
@[simp] theorem headerLow_input (b : Byte) : (s.headerLow b).input = s.input := rfl
@[simp] theorem headerLow_readOut (b : Byte) : (s.headerLow b).readOut = s.readOut := rfl
@[simp] theorem headerLow_draws (b : Byte) : (s.headerLow b).draws = s.draws := rfl
@[simp] theorem headerLow_fwdAt (b : Byte) (i : Byte) : (s.headerLow b).fwdAt i = s.fwdAt i := rfl
@[simp] theorem headerLow_invAt (b : Byte) (i : Byte) : (s.headerLow b).invAt i = s.invAt i := rfl

/-! ## sumBody -/

@[simp] theorem sumBody_magic (p : Byte) : (s.sumBody p).magic = s.magic := rfl
@[simp] theorem sumBody_keyv (p : Byte) : (s.sumBody p).keyv = s.keyv := rfl
@[simp] theorem sumBody_fwd (p : Byte) : (s.sumBody p).fwd = s.fwd := rfl
@[simp] theorem sumBody_inv (p : Byte) : (s.sumBody p).inv = s.inv := rfl
@[simp] theorem sumBody_res (p : Byte) : (s.sumBody p).res = s.res := rfl
@[simp] theorem sumBody_rlen (p : Byte) : (s.sumBody p).rlen = s.rlen := rfl
@[simp] theorem sumBody_incmd (p : Byte) : (s.sumBody p).incmd = s.incmd := rfl
@[simp] theorem sumBody_soc (p : Byte) : (s.sumBody p).soc = s.soc := rfl
@[simp] theorem sumBody_orph (p : Byte) : (s.sumBody p).orph = s.orph := rfl
@[simp] theorem sumBody_orphs (p : Byte) : (s.sumBody p).orphs = s.orphs := rfl
@[simp] theorem sumBody_nc (p : Byte) : (s.sumBody p).nc = s.nc := rfl
@[simp] theorem sumBody_rxm (p : Byte) : (s.sumBody p).rxm = s.rxm := rfl
@[simp] theorem sumBody_rxph (p : Byte) : (s.sumBody p).rxph = s.rxph := rfl
@[simp] theorem sumBody_ckexp (p : Byte) : (s.sumBody p).ckexp = s.ckexp := rfl
@[simp] theorem sumBody_rxsum (p : Byte) : (s.sumBody p).rxsum = addByte s.rxsum p := rfl
@[simp] theorem sumBody_clen (p : Byte) : (s.sumBody p).clen = s.clen := rfl
@[simp] theorem sumBody_prevlen (p : Byte) : (s.sumBody p).prevlen = s.prevlen := rfl
@[simp] theorem sumBody_verdict (p : Byte) : (s.sumBody p).verdict = s.verdict := rfl
@[simp] theorem sumBody_txsum (p : Byte) : (s.sumBody p).txsum = s.txsum := rfl
@[simp] theorem sumBody_lasterr (p : Byte) : (s.sumBody p).lasterr = s.lasterr := rfl
@[simp] theorem sumBody_err (p : Byte) : (s.sumBody p).err = s.err := rfl
@[simp] theorem sumBody_input (p : Byte) : (s.sumBody p).input = s.input := rfl
@[simp] theorem sumBody_readOut (p : Byte) : (s.sumBody p).readOut = s.readOut := rfl
@[simp] theorem sumBody_draws (p : Byte) : (s.sumBody p).draws = s.draws := rfl
@[simp] theorem sumBody_fwdAt (p : Byte) (i : Byte) : (s.sumBody p).fwdAt i = s.fwdAt i := rfl
@[simp] theorem sumBody_invAt (p : Byte) (i : Byte) : (s.sumBody p).invAt i = s.invAt i := rfl

/-! ## startRun -/

@[simp] theorem startRun_magic : s.startRun.magic = s.magic := rfl
@[simp] theorem startRun_keyv : s.startRun.keyv = s.keyv := rfl
@[simp] theorem startRun_fwd : s.startRun.fwd = s.fwd := rfl
@[simp] theorem startRun_inv : s.startRun.inv = s.inv := rfl
@[simp] theorem startRun_res : s.startRun.res = s.res := rfl
@[simp] theorem startRun_rlen : s.startRun.rlen = s.rlen := rfl
@[simp] theorem startRun_incmd : s.startRun.incmd = true := rfl
@[simp] theorem startRun_soc : s.startRun.soc = true := rfl
@[simp] theorem startRun_orph : s.startRun.orph = false := rfl
@[simp] theorem startRun_orphs : s.startRun.orphs = s.orphs := rfl
@[simp] theorem startRun_nc : s.startRun.nc = s.nc := rfl
@[simp] theorem startRun_rxm : s.startRun.rxm = s.rxm := rfl
@[simp] theorem startRun_rxph : s.startRun.rxph = s.rxph := rfl
@[simp] theorem startRun_ckexp : s.startRun.ckexp = s.ckexp := rfl
@[simp] theorem startRun_rxsum : s.startRun.rxsum = s.rxsum := rfl
@[simp] theorem startRun_clen : s.startRun.clen = 1 := rfl
@[simp] theorem startRun_prevlen : s.startRun.prevlen = s.clen := rfl
@[simp] theorem startRun_verdict : s.startRun.verdict = s.verdict := rfl
@[simp] theorem startRun_txsum : s.startRun.txsum = s.txsum := rfl
@[simp] theorem startRun_lasterr : s.startRun.lasterr = s.lasterr := rfl
@[simp] theorem startRun_err : s.startRun.err = s.err := rfl
@[simp] theorem startRun_input : s.startRun.input = s.input := rfl
@[simp] theorem startRun_readOut : s.startRun.readOut = s.readOut := rfl
@[simp] theorem startRun_draws : s.startRun.draws = s.draws := rfl
@[simp] theorem startRun_fwdAt (i : Byte) : s.startRun.fwdAt i = s.fwdAt i := rfl
@[simp] theorem startRun_invAt (i : Byte) : s.startRun.invAt i = s.invAt i := rfl

/-! ## contRun -/

@[simp] theorem contRun_magic : s.contRun.magic = s.magic := rfl
@[simp] theorem contRun_keyv : s.contRun.keyv = s.keyv := rfl
@[simp] theorem contRun_fwd : s.contRun.fwd = s.fwd := rfl
@[simp] theorem contRun_inv : s.contRun.inv = s.inv := rfl
@[simp] theorem contRun_res : s.contRun.res = s.res := rfl
@[simp] theorem contRun_rlen : s.contRun.rlen = s.rlen := rfl
@[simp] theorem contRun_incmd : s.contRun.incmd = s.incmd := rfl
@[simp] theorem contRun_soc : s.contRun.soc = false := rfl
@[simp] theorem contRun_orph : s.contRun.orph = false := rfl
@[simp] theorem contRun_orphs : s.contRun.orphs = s.orphs := rfl
@[simp] theorem contRun_nc : s.contRun.nc = s.nc := rfl
@[simp] theorem contRun_rxm : s.contRun.rxm = s.rxm := rfl
@[simp] theorem contRun_rxph : s.contRun.rxph = s.rxph := rfl
@[simp] theorem contRun_ckexp : s.contRun.ckexp = s.ckexp := rfl
@[simp] theorem contRun_rxsum : s.contRun.rxsum = s.rxsum := rfl
@[simp] theorem contRun_clen : s.contRun.clen = sat16 (s.clen.toNat + 1) := rfl
@[simp] theorem contRun_prevlen : s.contRun.prevlen = s.prevlen := rfl
@[simp] theorem contRun_verdict : s.contRun.verdict = s.verdict := rfl
@[simp] theorem contRun_txsum : s.contRun.txsum = s.txsum := rfl
@[simp] theorem contRun_lasterr : s.contRun.lasterr = s.lasterr := rfl
@[simp] theorem contRun_err : s.contRun.err = s.err := rfl
@[simp] theorem contRun_input : s.contRun.input = s.input := rfl
@[simp] theorem contRun_readOut : s.contRun.readOut = s.readOut := rfl
@[simp] theorem contRun_draws : s.contRun.draws = s.draws := rfl
@[simp] theorem contRun_fwdAt (i : Byte) : s.contRun.fwdAt i = s.fwdAt i := rfl
@[simp] theorem contRun_invAt (i : Byte) : s.contRun.invAt i = s.invAt i := rfl

/-! ## orphanByte -/

@[simp] theorem orphanByte_magic : s.orphanByte.magic = s.magic := rfl
@[simp] theorem orphanByte_keyv : s.orphanByte.keyv = s.keyv := rfl
@[simp] theorem orphanByte_fwd : s.orphanByte.fwd = s.fwd := rfl
@[simp] theorem orphanByte_inv : s.orphanByte.inv = s.inv := rfl
@[simp] theorem orphanByte_res : s.orphanByte.res = s.res := rfl
@[simp] theorem orphanByte_rlen : s.orphanByte.rlen = s.rlen := rfl
@[simp] theorem orphanByte_incmd : s.orphanByte.incmd = s.incmd := rfl
@[simp] theorem orphanByte_soc : s.orphanByte.soc = false := rfl
@[simp] theorem orphanByte_orph : s.orphanByte.orph = true := rfl
@[simp] theorem orphanByte_orphs : s.orphanByte.orphs = true := rfl
@[simp] theorem orphanByte_nc : s.orphanByte.nc = s.nc := rfl
@[simp] theorem orphanByte_rxm : s.orphanByte.rxm = s.rxm := rfl
@[simp] theorem orphanByte_rxph : s.orphanByte.rxph = s.rxph := rfl
@[simp] theorem orphanByte_ckexp : s.orphanByte.ckexp = s.ckexp := rfl
@[simp] theorem orphanByte_rxsum : s.orphanByte.rxsum = s.rxsum := rfl
@[simp] theorem orphanByte_clen : s.orphanByte.clen = s.clen := rfl
@[simp] theorem orphanByte_prevlen : s.orphanByte.prevlen = s.prevlen := rfl
@[simp] theorem orphanByte_verdict : s.orphanByte.verdict = s.verdict := rfl
@[simp] theorem orphanByte_txsum : s.orphanByte.txsum = s.txsum := rfl
@[simp] theorem orphanByte_lasterr : s.orphanByte.lasterr = s.lasterr := rfl
@[simp] theorem orphanByte_err : s.orphanByte.err = s.err := rfl
@[simp] theorem orphanByte_input : s.orphanByte.input = s.input := rfl
@[simp] theorem orphanByte_readOut : s.orphanByte.readOut = s.readOut := rfl
@[simp] theorem orphanByte_draws : s.orphanByte.draws = s.draws := rfl
@[simp] theorem orphanByte_fwdAt (i : Byte) : s.orphanByte.fwdAt i = s.fwdAt i := rfl
@[simp] theorem orphanByte_invAt (i : Byte) : s.orphanByte.invAt i = s.invAt i := rfl

/-! ## endShort -/

@[simp] theorem endShort_magic : s.endShort.magic = s.magic := rfl
@[simp] theorem endShort_keyv : s.endShort.keyv = s.keyv := rfl
@[simp] theorem endShort_fwd : s.endShort.fwd = s.fwd := rfl
@[simp] theorem endShort_inv : s.endShort.inv = s.inv := rfl
@[simp] theorem endShort_res : s.endShort.res = s.res := rfl
@[simp] theorem endShort_rlen : s.endShort.rlen = s.rlen := rfl
@[simp] theorem endShort_incmd : s.endShort.incmd = s.incmd := rfl
@[simp] theorem endShort_soc : s.endShort.soc = s.soc := rfl
@[simp] theorem endShort_orph : s.endShort.orph = s.orph := rfl
@[simp] theorem endShort_orphs : s.endShort.orphs = s.orphs := rfl
@[simp] theorem endShort_nc : s.endShort.nc = s.nc := rfl
@[simp] theorem endShort_rxm : s.endShort.rxm = s.rxm := rfl
@[simp] theorem endShort_rxph : s.endShort.rxph = .closed := rfl
@[simp] theorem endShort_ckexp : s.endShort.ckexp = s.ckexp := rfl
@[simp] theorem endShort_rxsum : s.endShort.rxsum = s.rxsum := rfl
@[simp] theorem endShort_clen : s.endShort.clen = s.clen := rfl
@[simp] theorem endShort_prevlen : s.endShort.prevlen = s.prevlen := rfl
@[simp] theorem endShort_verdict : s.endShort.verdict = .short := rfl
@[simp] theorem endShort_txsum : s.endShort.txsum = s.txsum := rfl
@[simp] theorem endShort_lasterr : s.endShort.lasterr = s.lasterr := rfl
@[simp] theorem endShort_err : s.endShort.err = s.err := rfl
@[simp] theorem endShort_input : s.endShort.input = s.input := rfl
@[simp] theorem endShort_readOut : s.endShort.readOut = s.readOut := rfl
@[simp] theorem endShort_draws : s.endShort.draws = s.draws := rfl
@[simp] theorem endShort_fwdAt (i : Byte) : s.endShort.fwdAt i = s.fwdAt i := rfl
@[simp] theorem endShort_invAt (i : Byte) : s.endShort.invAt i = s.invAt i := rfl

/-! ## closeUnit -/

@[simp] theorem closeUnit_magic (v : Verdict) : (s.closeUnit v).magic = s.magic := rfl
@[simp] theorem closeUnit_keyv (v : Verdict) : (s.closeUnit v).keyv = s.keyv := rfl
@[simp] theorem closeUnit_fwd (v : Verdict) : (s.closeUnit v).fwd = s.fwd := rfl
@[simp] theorem closeUnit_inv (v : Verdict) : (s.closeUnit v).inv = s.inv := rfl
@[simp] theorem closeUnit_res (v : Verdict) : (s.closeUnit v).res = s.res := rfl
@[simp] theorem closeUnit_rlen (v : Verdict) : (s.closeUnit v).rlen = s.rlen := rfl
@[simp] theorem closeUnit_incmd (v : Verdict) : (s.closeUnit v).incmd = false := rfl
@[simp] theorem closeUnit_soc (v : Verdict) : (s.closeUnit v).soc = false := rfl
@[simp] theorem closeUnit_orph (v : Verdict) : (s.closeUnit v).orph = false := rfl
@[simp] theorem closeUnit_orphs (v : Verdict) : (s.closeUnit v).orphs = s.orphs := rfl
@[simp] theorem closeUnit_nc (v : Verdict) : (s.closeUnit v).nc = s.nc := rfl
@[simp] theorem closeUnit_rxm (v : Verdict) : (s.closeUnit v).rxm = s.rxm := rfl
@[simp] theorem closeUnit_rxph (v : Verdict) : (s.closeUnit v).rxph = .closed := rfl
@[simp] theorem closeUnit_ckexp (v : Verdict) : (s.closeUnit v).ckexp = s.ckexp := rfl
@[simp] theorem closeUnit_rxsum (v : Verdict) : (s.closeUnit v).rxsum = s.rxsum := rfl
@[simp] theorem closeUnit_clen (v : Verdict) : (s.closeUnit v).clen = 0 := rfl
@[simp] theorem closeUnit_prevlen (v : Verdict) : (s.closeUnit v).prevlen = s.clen := rfl
@[simp] theorem closeUnit_verdict (v : Verdict) : (s.closeUnit v).verdict = v := rfl
@[simp] theorem closeUnit_txsum (v : Verdict) : (s.closeUnit v).txsum = s.txsum := rfl
@[simp] theorem closeUnit_lasterr (v : Verdict) : (s.closeUnit v).lasterr = s.lasterr := rfl
@[simp] theorem closeUnit_err (v : Verdict) : (s.closeUnit v).err = s.err := rfl
@[simp] theorem closeUnit_input (v : Verdict) : (s.closeUnit v).input = s.input := rfl
@[simp] theorem closeUnit_readOut (v : Verdict) : (s.closeUnit v).readOut = s.readOut := rfl
@[simp] theorem closeUnit_draws (v : Verdict) : (s.closeUnit v).draws = s.draws := rfl
@[simp] theorem closeUnit_fwdAt (v : Verdict) (i : Byte) : (s.closeUnit v).fwdAt i = s.fwdAt i := rfl
@[simp] theorem closeUnit_invAt (v : Verdict) (i : Byte) : (s.closeUnit v).invAt i = s.invAt i := rfl

/-! ## clearTx -/

@[simp] theorem clearTx_magic : s.clearTx.magic = s.magic := rfl
@[simp] theorem clearTx_keyv : s.clearTx.keyv = s.keyv := rfl
@[simp] theorem clearTx_fwd : s.clearTx.fwd = s.fwd := rfl
@[simp] theorem clearTx_inv : s.clearTx.inv = s.inv := rfl
@[simp] theorem clearTx_res : s.clearTx.res = s.res := rfl
@[simp] theorem clearTx_rlen : s.clearTx.rlen = s.rlen := rfl
@[simp] theorem clearTx_incmd : s.clearTx.incmd = s.incmd := rfl
@[simp] theorem clearTx_soc : s.clearTx.soc = s.soc := rfl
@[simp] theorem clearTx_orph : s.clearTx.orph = s.orph := rfl
@[simp] theorem clearTx_orphs : s.clearTx.orphs = s.orphs := rfl
@[simp] theorem clearTx_nc : s.clearTx.nc = s.nc := rfl
@[simp] theorem clearTx_rxm : s.clearTx.rxm = s.rxm := rfl
@[simp] theorem clearTx_rxph : s.clearTx.rxph = s.rxph := rfl
@[simp] theorem clearTx_ckexp : s.clearTx.ckexp = s.ckexp := rfl
@[simp] theorem clearTx_rxsum : s.clearTx.rxsum = s.rxsum := rfl
@[simp] theorem clearTx_clen : s.clearTx.clen = s.clen := rfl
@[simp] theorem clearTx_prevlen : s.clearTx.prevlen = s.prevlen := rfl
@[simp] theorem clearTx_verdict : s.clearTx.verdict = s.verdict := rfl
@[simp] theorem clearTx_txsum : s.clearTx.txsum = 0 := rfl
@[simp] theorem clearTx_lasterr : s.clearTx.lasterr = s.lasterr := rfl
@[simp] theorem clearTx_err : s.clearTx.err = s.err := rfl
@[simp] theorem clearTx_input : s.clearTx.input = s.input := rfl
@[simp] theorem clearTx_readOut : s.clearTx.readOut = s.readOut := rfl
@[simp] theorem clearTx_draws : s.clearTx.draws = s.draws := rfl
@[simp] theorem clearTx_fwdAt (i : Byte) : s.clearTx.fwdAt i = s.fwdAt i := rfl
@[simp] theorem clearTx_invAt (i : Byte) : s.clearTx.invAt i = s.invAt i := rfl

/-! ## sumTx -/

@[simp] theorem sumTx_magic (p : Byte) : (s.sumTx p).magic = s.magic := rfl
@[simp] theorem sumTx_keyv (p : Byte) : (s.sumTx p).keyv = s.keyv := rfl
@[simp] theorem sumTx_fwd (p : Byte) : (s.sumTx p).fwd = s.fwd := rfl
@[simp] theorem sumTx_inv (p : Byte) : (s.sumTx p).inv = s.inv := rfl
@[simp] theorem sumTx_res (p : Byte) : (s.sumTx p).res = s.res := rfl
@[simp] theorem sumTx_rlen (p : Byte) : (s.sumTx p).rlen = s.rlen := rfl
@[simp] theorem sumTx_incmd (p : Byte) : (s.sumTx p).incmd = s.incmd := rfl
@[simp] theorem sumTx_soc (p : Byte) : (s.sumTx p).soc = s.soc := rfl
@[simp] theorem sumTx_orph (p : Byte) : (s.sumTx p).orph = s.orph := rfl
@[simp] theorem sumTx_orphs (p : Byte) : (s.sumTx p).orphs = s.orphs := rfl
@[simp] theorem sumTx_nc (p : Byte) : (s.sumTx p).nc = s.nc := rfl
@[simp] theorem sumTx_rxm (p : Byte) : (s.sumTx p).rxm = s.rxm := rfl
@[simp] theorem sumTx_rxph (p : Byte) : (s.sumTx p).rxph = s.rxph := rfl
@[simp] theorem sumTx_ckexp (p : Byte) : (s.sumTx p).ckexp = s.ckexp := rfl
@[simp] theorem sumTx_rxsum (p : Byte) : (s.sumTx p).rxsum = s.rxsum := rfl
@[simp] theorem sumTx_clen (p : Byte) : (s.sumTx p).clen = s.clen := rfl
@[simp] theorem sumTx_prevlen (p : Byte) : (s.sumTx p).prevlen = s.prevlen := rfl
@[simp] theorem sumTx_verdict (p : Byte) : (s.sumTx p).verdict = s.verdict := rfl
@[simp] theorem sumTx_txsum (p : Byte) : (s.sumTx p).txsum = addByte s.txsum p := rfl
@[simp] theorem sumTx_lasterr (p : Byte) : (s.sumTx p).lasterr = s.lasterr := rfl
@[simp] theorem sumTx_err (p : Byte) : (s.sumTx p).err = s.err := rfl
@[simp] theorem sumTx_input (p : Byte) : (s.sumTx p).input = s.input := rfl
@[simp] theorem sumTx_readOut (p : Byte) : (s.sumTx p).readOut = s.readOut := rfl
@[simp] theorem sumTx_draws (p : Byte) : (s.sumTx p).draws = s.draws := rfl
@[simp] theorem sumTx_fwdAt (p : Byte) (i : Byte) : (s.sumTx p).fwdAt i = s.fwdAt i := rfl
@[simp] theorem sumTx_invAt (p : Byte) (i : Byte) : (s.sumTx p).invAt i = s.invAt i := rfl

/-! ## setNc -/

@[simp] theorem setNc_magic (b : Bool) : (s.setNc b).magic = s.magic := rfl
@[simp] theorem setNc_keyv (b : Bool) : (s.setNc b).keyv = s.keyv := rfl
@[simp] theorem setNc_fwd (b : Bool) : (s.setNc b).fwd = s.fwd := rfl
@[simp] theorem setNc_inv (b : Bool) : (s.setNc b).inv = s.inv := rfl
@[simp] theorem setNc_res (b : Bool) : (s.setNc b).res = s.res := rfl
@[simp] theorem setNc_rlen (b : Bool) : (s.setNc b).rlen = s.rlen := rfl
@[simp] theorem setNc_incmd (b : Bool) : (s.setNc b).incmd = s.incmd := rfl
@[simp] theorem setNc_soc (b : Bool) : (s.setNc b).soc = s.soc := rfl
@[simp] theorem setNc_orph (b : Bool) : (s.setNc b).orph = s.orph := rfl
@[simp] theorem setNc_orphs (b : Bool) : (s.setNc b).orphs = s.orphs := rfl
@[simp] theorem setNc_nc (b : Bool) : (s.setNc b).nc = b := rfl
@[simp] theorem setNc_rxm (b : Bool) : (s.setNc b).rxm = s.rxm := rfl
@[simp] theorem setNc_rxph (b : Bool) : (s.setNc b).rxph = s.rxph := rfl
@[simp] theorem setNc_ckexp (b : Bool) : (s.setNc b).ckexp = s.ckexp := rfl
@[simp] theorem setNc_rxsum (b : Bool) : (s.setNc b).rxsum = s.rxsum := rfl
@[simp] theorem setNc_clen (b : Bool) : (s.setNc b).clen = s.clen := rfl
@[simp] theorem setNc_prevlen (b : Bool) : (s.setNc b).prevlen = s.prevlen := rfl
@[simp] theorem setNc_verdict (b : Bool) : (s.setNc b).verdict = s.verdict := rfl
@[simp] theorem setNc_txsum (b : Bool) : (s.setNc b).txsum = s.txsum := rfl
@[simp] theorem setNc_lasterr (b : Bool) : (s.setNc b).lasterr = s.lasterr := rfl
@[simp] theorem setNc_err (b : Bool) : (s.setNc b).err = s.err := rfl
@[simp] theorem setNc_input (b : Bool) : (s.setNc b).input = s.input := rfl
@[simp] theorem setNc_readOut (b : Bool) : (s.setNc b).readOut = s.readOut := rfl
@[simp] theorem setNc_draws (b : Bool) : (s.setNc b).draws = s.draws := rfl
@[simp] theorem setNc_fwdAt (b : Bool) (i : Byte) : (s.setNc b).fwdAt i = s.fwdAt i := rfl
@[simp] theorem setNc_invAt (b : Bool) (i : Byte) : (s.setNc b).invAt i = s.invAt i := rfl

/-! ## hostRead -/

@[simp] theorem hostRead_magic (n : BitVec 4) : (s.hostRead n).magic = s.magic := rfl
@[simp] theorem hostRead_keyv (n : BitVec 4) : (s.hostRead n).keyv = s.keyv := rfl
@[simp] theorem hostRead_fwd (n : BitVec 4) : (s.hostRead n).fwd = s.fwd := rfl
@[simp] theorem hostRead_inv (n : BitVec 4) : (s.hostRead n).inv = s.inv := rfl
@[simp] theorem hostRead_res (n : BitVec 4) : (s.hostRead n).res = s.res := rfl
@[simp] theorem hostRead_rlen (n : BitVec 4) : (s.hostRead n).rlen = s.rlen := rfl
@[simp] theorem hostRead_incmd (n : BitVec 4) : (s.hostRead n).incmd = s.incmd := rfl
@[simp] theorem hostRead_soc (n : BitVec 4) : (s.hostRead n).soc = s.soc := rfl
@[simp] theorem hostRead_orph (n : BitVec 4) : (s.hostRead n).orph = s.orph := rfl
@[simp] theorem hostRead_orphs (n : BitVec 4) : (s.hostRead n).orphs = s.orphs := rfl
@[simp] theorem hostRead_nc (n : BitVec 4) : (s.hostRead n).nc = s.nc := rfl
@[simp] theorem hostRead_rxm (n : BitVec 4) : (s.hostRead n).rxm = s.rxm := rfl
@[simp] theorem hostRead_rxph (n : BitVec 4) : (s.hostRead n).rxph = s.rxph := rfl
@[simp] theorem hostRead_ckexp (n : BitVec 4) : (s.hostRead n).ckexp = s.ckexp := rfl
@[simp] theorem hostRead_rxsum (n : BitVec 4) : (s.hostRead n).rxsum = s.rxsum := rfl
@[simp] theorem hostRead_clen (n : BitVec 4) : (s.hostRead n).clen = s.clen := rfl
@[simp] theorem hostRead_prevlen (n : BitVec 4) : (s.hostRead n).prevlen = s.prevlen := rfl
@[simp] theorem hostRead_verdict (n : BitVec 4) : (s.hostRead n).verdict = s.verdict := rfl
@[simp] theorem hostRead_txsum (n : BitVec 4) : (s.hostRead n).txsum = s.txsum := rfl
@[simp] theorem hostRead_lasterr (n : BitVec 4) : (s.hostRead n).lasterr = s.lasterr := rfl
@[simp] theorem hostRead_err (n : BitVec 4) : (s.hostRead n).err = s.err := rfl
@[simp] theorem hostRead_input (n : BitVec 4) : (s.hostRead n).input = s.input := rfl
@[simp] theorem hostRead_readOut (n : BitVec 4) : (s.hostRead n).readOut = some (s.readPort n) := rfl
@[simp] theorem hostRead_draws (n : BitVec 4) : (s.hostRead n).draws = (if n = 3 ∧ s.keyv = false then s.draws + 1 else s.draws) := rfl

/-! ## hostReset -/

@[simp] theorem hostReset_magic : s.hostReset.magic = State.reset.magic := rfl
@[simp] theorem hostReset_keyv : s.hostReset.keyv = State.reset.keyv := rfl
@[simp] theorem hostReset_fwd : s.hostReset.fwd = State.reset.fwd := rfl
@[simp] theorem hostReset_inv : s.hostReset.inv = State.reset.inv := rfl
@[simp] theorem hostReset_res : s.hostReset.res = State.reset.res := rfl
@[simp] theorem hostReset_rlen : s.hostReset.rlen = State.reset.rlen := rfl
@[simp] theorem hostReset_incmd : s.hostReset.incmd = State.reset.incmd := rfl
@[simp] theorem hostReset_soc : s.hostReset.soc = State.reset.soc := rfl
@[simp] theorem hostReset_orph : s.hostReset.orph = State.reset.orph := rfl
@[simp] theorem hostReset_orphs : s.hostReset.orphs = State.reset.orphs := rfl
@[simp] theorem hostReset_nc : s.hostReset.nc = State.reset.nc := rfl
@[simp] theorem hostReset_rxm : s.hostReset.rxm = State.reset.rxm := rfl
@[simp] theorem hostReset_rxph : s.hostReset.rxph = State.reset.rxph := rfl
@[simp] theorem hostReset_ckexp : s.hostReset.ckexp = State.reset.ckexp := rfl
@[simp] theorem hostReset_rxsum : s.hostReset.rxsum = State.reset.rxsum := rfl
@[simp] theorem hostReset_clen : s.hostReset.clen = State.reset.clen := rfl
@[simp] theorem hostReset_prevlen : s.hostReset.prevlen = State.reset.prevlen := rfl
@[simp] theorem hostReset_verdict : s.hostReset.verdict = State.reset.verdict := rfl
@[simp] theorem hostReset_txsum : s.hostReset.txsum = State.reset.txsum := rfl
@[simp] theorem hostReset_lasterr : s.hostReset.lasterr = State.reset.lasterr := rfl
@[simp] theorem hostReset_err : s.hostReset.err = State.reset.err := rfl
@[simp] theorem hostReset_input : s.hostReset.input = s.input := rfl
@[simp] theorem hostReset_readOut : s.hostReset.readOut = s.readOut := rfl
@[simp] theorem hostReset_draws : s.hostReset.draws = s.draws + 1 := rfl

/-! ## taken -/

@[simp] theorem taken_magic : s.taken.magic = s.magic := rfl
@[simp] theorem taken_keyv : s.taken.keyv = s.keyv := rfl
@[simp] theorem taken_fwd : s.taken.fwd = s.fwd := rfl
@[simp] theorem taken_inv : s.taken.inv = s.inv := rfl
@[simp] theorem taken_res : s.taken.res = s.res := rfl
@[simp] theorem taken_rlen : s.taken.rlen = s.rlen := rfl
@[simp] theorem taken_incmd : s.taken.incmd = s.incmd := rfl
@[simp] theorem taken_soc : s.taken.soc = s.soc := rfl
@[simp] theorem taken_orph : s.taken.orph = s.orph := rfl
@[simp] theorem taken_orphs : s.taken.orphs = s.orphs := rfl
@[simp] theorem taken_nc : s.taken.nc = s.nc := rfl
@[simp] theorem taken_rxm : s.taken.rxm = s.rxm := rfl
@[simp] theorem taken_rxph : s.taken.rxph = s.rxph := rfl
@[simp] theorem taken_ckexp : s.taken.ckexp = s.ckexp := rfl
@[simp] theorem taken_rxsum : s.taken.rxsum = s.rxsum := rfl
@[simp] theorem taken_clen : s.taken.clen = s.clen := rfl
@[simp] theorem taken_prevlen : s.taken.prevlen = s.prevlen := rfl
@[simp] theorem taken_verdict : s.taken.verdict = s.verdict := rfl
@[simp] theorem taken_txsum : s.taken.txsum = s.txsum := rfl
@[simp] theorem taken_lasterr : s.taken.lasterr = s.lasterr := rfl
@[simp] theorem taken_err : s.taken.err = s.err := rfl
@[simp] theorem taken_input : s.taken.input = s.input.tail := rfl
@[simp] theorem taken_readOut : s.taken.readOut = s.readOut := rfl
@[simp] theorem taken_draws : s.taken.draws = s.draws := rfl
@[simp] theorem taken_fwdAt (i : Byte) : s.taken.fwdAt i = s.fwdAt i := rfl
@[simp] theorem taken_invAt (i : Byte) : s.taken.invAt i = s.invAt i := rfl

/-! ## issue -/

@[simp] theorem issue_magic (w : OpWord) : (s.issue w).magic = s.magic := rfl
@[simp] theorem issue_keyv (w : OpWord) : (s.issue w).keyv = s.keyv := rfl
@[simp] theorem issue_fwd (w : OpWord) : (s.issue w).fwd = s.fwd := rfl
@[simp] theorem issue_inv (w : OpWord) : (s.issue w).inv = s.inv := rfl
@[simp] theorem issue_res (w : OpWord) : (s.issue w).res = s.res := rfl
@[simp] theorem issue_rlen (w : OpWord) : (s.issue w).rlen = s.rlen := rfl
@[simp] theorem issue_incmd (w : OpWord) : (s.issue w).incmd = s.incmd := rfl
@[simp] theorem issue_soc (w : OpWord) : (s.issue w).soc = s.soc := rfl
@[simp] theorem issue_orph (w : OpWord) : (s.issue w).orph = s.orph := rfl
@[simp] theorem issue_orphs (w : OpWord) : (s.issue w).orphs = s.orphs := rfl
@[simp] theorem issue_nc (w : OpWord) : (s.issue w).nc = s.nc := rfl
@[simp] theorem issue_rxm (w : OpWord) : (s.issue w).rxm = s.rxm := rfl
@[simp] theorem issue_rxph (w : OpWord) : (s.issue w).rxph = s.rxph := rfl
@[simp] theorem issue_ckexp (w : OpWord) : (s.issue w).ckexp = s.ckexp := rfl
@[simp] theorem issue_rxsum (w : OpWord) : (s.issue w).rxsum = s.rxsum := rfl
@[simp] theorem issue_clen (w : OpWord) : (s.issue w).clen = s.clen := rfl
@[simp] theorem issue_prevlen (w : OpWord) : (s.issue w).prevlen = s.prevlen := rfl
@[simp] theorem issue_verdict (w : OpWord) : (s.issue w).verdict = s.verdict := rfl
@[simp] theorem issue_txsum (w : OpWord) : (s.issue w).txsum = s.txsum := rfl
@[simp] theorem issue_lasterr (w : OpWord) : (s.issue w).lasterr = s.lasterr := rfl
@[simp] theorem issue_err (w : OpWord) : (s.issue w).err = s.err := rfl
@[simp] theorem issue_input (w : OpWord) : (s.issue w).input = .word w :: s.input := rfl
@[simp] theorem issue_readOut (w : OpWord) : (s.issue w).readOut = s.readOut := rfl
@[simp] theorem issue_draws (w : OpWord) : (s.issue w).draws = s.draws := rfl
@[simp] theorem issue_fwdAt (w : OpWord) (i : Byte) : (s.issue w).fwdAt i = s.fwdAt i := rfl
@[simp] theorem issue_invAt (w : OpWord) (i : Byte) : (s.issue w).invAt i = s.invAt i := rfl

/-! ## classByte: the fields no class moves -/

@[simp] theorem classByte_magic (p : Byte) : (s.classByte p).magic = s.magic := by
  unfold classByte; split <;> rfl
@[simp] theorem classByte_keyv (p : Byte) : (s.classByte p).keyv = s.keyv := by
  unfold classByte; split <;> rfl
@[simp] theorem classByte_fwd (p : Byte) : (s.classByte p).fwd = s.fwd := by
  unfold classByte; split <;> rfl
@[simp] theorem classByte_inv (p : Byte) : (s.classByte p).inv = s.inv := by
  unfold classByte; split <;> rfl
@[simp] theorem classByte_res (p : Byte) : (s.classByte p).res = s.res := by
  unfold classByte; split <;> rfl
@[simp] theorem classByte_rlen (p : Byte) : (s.classByte p).rlen = s.rlen := by
  unfold classByte; split <;> rfl
@[simp] theorem classByte_nc (p : Byte) : (s.classByte p).nc = s.nc := by
  unfold classByte; split <;> rfl
@[simp] theorem classByte_rxm (p : Byte) : (s.classByte p).rxm = s.rxm := by
  unfold classByte; split <;> rfl
@[simp] theorem classByte_rxph (p : Byte) : (s.classByte p).rxph = s.rxph := by
  unfold classByte; split <;> rfl
@[simp] theorem classByte_ckexp (p : Byte) : (s.classByte p).ckexp = s.ckexp := by
  unfold classByte; split <;> rfl
@[simp] theorem classByte_rxsum (p : Byte) : (s.classByte p).rxsum = s.rxsum := by
  unfold classByte; split <;> rfl
@[simp] theorem classByte_verdict (p : Byte) : (s.classByte p).verdict = s.verdict := by
  unfold classByte; split <;> rfl
@[simp] theorem classByte_txsum (p : Byte) : (s.classByte p).txsum = s.txsum := by
  unfold classByte; split <;> rfl
@[simp] theorem classByte_lasterr (p : Byte) : (s.classByte p).lasterr = s.lasterr := by
  unfold classByte; split <;> rfl
@[simp] theorem classByte_err (p : Byte) : (s.classByte p).err = s.err := by
  unfold classByte; split <;> rfl
@[simp] theorem classByte_input (p : Byte) : (s.classByte p).input = s.input := by
  unfold classByte; split <;> rfl
@[simp] theorem classByte_readOut (p : Byte) : (s.classByte p).readOut = s.readOut := by
  unfold classByte; split <;> rfl
@[simp] theorem classByte_draws (p : Byte) : (s.classByte p).draws = s.draws := by
  unfold classByte; split <;> rfl
@[simp] theorem classByte_fwdAt (p i : Byte) : (s.classByte p).fwdAt i = s.fwdAt i := by
  unfold classByte; split <;> rfl
@[simp] theorem classByte_invAt (p i : Byte) : (s.classByte p).invAt i = s.invAt i := by
  unfold classByte; split <;> rfl

end Sys2Proof.Machine.State
end

