-- ==== Sys2Proof/Laws/Memory.lean ====
section
/-! SUPPORT. The laws of the tables: a read after a write, the canonical form kept by every operation, and what a whole rewrite
leaves (`20_memory.md` rules R40, R41). -/

namespace Sys2Proof.Machine

/-! ## One write -/

@[simp] theorem Memory.read_nil (a : Nat) : Memory.read [] a = none := rfl

theorem Memory.read_cons (c : Host.Cell) (m : Memory) (a : Nat) :
    Memory.read (c :: m) a = if a = c.1 then some c.2 else Memory.read m a := by
  obtain ⟨k, v⟩ := c
  simp only [Memory.read, List.lookup_cons]
  by_cases h : a = k
  · simp [h]
  · simp [h, beq_eq_false_iff_ne.2 h]

theorem Memory.write_cons (c : Host.Cell) (m : Memory) (a : Nat) (v : Byte) :
    Memory.write (c :: m) a v =
      if a < c.1 then (a, v) :: c :: m else if a = c.1 then (a, v) :: m else c :: Memory.write m a v := rfl

theorem Memory.read_write_same (m : Memory) (a : Nat) (v : Byte) : (m.write a v).read a = some v := by
  induction m with
  | nil => simp [Memory.write, Memory.read_cons]
  | cons c m ih =>
    rw [Memory.write_cons]
    split
    · simp [Memory.read_cons]
    · split
      · simp [Memory.read_cons]
      · simp [Memory.read_cons, *]

theorem Memory.read_write_other (m : Memory) (a b : Nat) (v : Byte) (h : b ≠ a) :
    (m.write a v).read b = m.read b := by
  induction m with
  | nil => simp [Memory.write, Memory.read_cons, h]
  | cons c m ih =>
    rw [Memory.write_cons]
    split
    · simp [Memory.read_cons, h]
    · split
      · rename_i _ hc
        subst hc
        simp [Memory.read_cons, h]
      · simp [Memory.read_cons, ih]

/-- Every entry of a table after a write is the one written or one that was there. -/
theorem Memory.mem_write (m : Memory) (a : Nat) (v : Byte) (c : Host.Cell) (h : c ∈ m.write a v) :
    c = (a, v) ∨ c ∈ m := by
  induction m with
  | nil => simpa [Memory.write] using h
  | cons d m ih =>
    rw [Memory.write_cons] at h
    split at h
    · simpa using h
    · split at h
      · rcases List.mem_cons.1 h with h | h
        · exact .inl h
        · exact .inr (List.mem_cons_of_mem _ h)
      · rcases List.mem_cons.1 h with h | h
        · exact .inr (h ▸ List.mem_cons_self)
        · exact (ih h).imp id (List.mem_cons_of_mem _)

theorem Memory.wf_nil : Memory.wf [] := by
  constructor
  · exact List.Pairwise.nil
  · intro c hc; cases hc

/-- A write within the table keeps the canonical form. -/
theorem Memory.write_wf (m : Memory) (a : Nat) (v : Byte) (hm : m.wf) (ha : a < 256) : (m.write a v).wf := by
  refine ⟨?_, fun c hc => ?_⟩
  · have hp := hm.1
    clear hm
    induction m with
    | nil => simp [Memory.write]
    | cons d m ih =>
      rw [List.pairwise_cons] at hp
      rw [Memory.write_cons]
      split
      · rename_i hlt
        refine List.pairwise_cons.2 ⟨fun c hc => ?_, List.pairwise_cons.2 hp⟩
        rcases List.mem_cons.1 hc with rfl | hc
        · exact hlt
        · exact Nat.lt_trans hlt (hp.1 c hc)
      · split
        · rename_i _ heq
          exact List.pairwise_cons.2 ⟨fun c hc => heq ▸ hp.1 c hc, hp.2⟩
        · rename_i h1 h2
          refine List.pairwise_cons.2 ⟨fun c hc => ?_, ih hp.2⟩
          rcases Memory.mem_write m a v c hc with rfl | hc
          · simp only; omega
          · exact hp.1 c hc
  · rcases Memory.mem_write m a v c hc with rfl | hc
    · exact ha
    · exact hm.2 c hc

/-! ## A whole rewrite -/

theorem Memory.read_writeBelow (m : Memory) (f : Byte → Byte) (n a : Nat) :
    (m.writeBelow f n).read a = if a < n then some (f (BitVec.ofNat 8 a)) else m.read a := by
  induction n generalizing m with
  | zero => simp [Memory.writeBelow]
  | succ n ih =>
    rw [Memory.writeBelow, ih]
    by_cases h : a = n
    · subst h; simp [Memory.read_write_same]
    · rw [Memory.read_write_other _ _ _ _ h]
      simp only [show a < n + 1 ↔ a < n by omega]

theorem Memory.writeBelow_wf (m : Memory) (f : Byte → Byte) (n : Nat) (hm : m.wf) (hn : n ≤ 256) :
    (m.writeBelow f n).wf := by
  induction n generalizing m with
  | zero => exact hm
  | succ n ih => exact ih _ (Memory.write_wf _ _ _ hm (by omega)) (by omega)

/-- A rewrite is the writes of all 256 entries. -/
theorem Memory.rewrite_eq (m : Memory) (f : Byte → Byte) : m.rewrite f = m.writeBelow f 256 := by
  unfold Memory.rewrite
  generalize 256 = n
  rfl

/-- After a rewrite every entry of the table reads as the function's value. -/
theorem Memory.read_rewrite (m : Memory) (f : Byte → Byte) (b : Byte) :
    (m.rewrite f).read b.toNat = some (f b) := by
  rw [Memory.rewrite_eq, Memory.read_writeBelow, if_pos b.isLt]
  simp

theorem Memory.rewrite_wf (m : Memory) (f : Byte → Byte) (hm : m.wf) : (m.rewrite f).wf :=
  m.rewrite_eq f ▸ Memory.writeBelow_wf m f 256 hm (Nat.le_refl _)

/-! ## Equal reads, equal tables -/

/-- An index that no entry of a table has is not listed. -/
theorem Memory.read_eq_none (m : Memory) (a : Nat) (h : ∀ c ∈ m, c.1 ≠ a) : m.read a = none := by
  induction m with
  | nil => rfl
  | cons c m ih =>
    rw [Memory.read_cons, if_neg (fun e => h c List.mem_cons_self e.symm)]
    exact ih fun d hd => h d (List.mem_cons_of_mem _ hd)

/-- Two tables in canonical form that read alike are equal data. -/
theorem Memory.ext_of_wf (m m' : Memory) (hm : m.wf) (hm' : m'.wf) (h : ∀ a, m.read a = m'.read a) : m = m' := by
  have key : ∀ (l l' : Memory), l.Pairwise (fun c d => c.1 < d.1) → l'.Pairwise (fun c d => c.1 < d.1) →
      (∀ a, l.read a = l'.read a) → l = l' := by
    intro l
    induction l with
    | nil =>
      intro l' _ _ hr
      cases l' with
      | nil => rfl
      | cons d l' => simpa [Memory.read_cons] using hr d.1
    | cons c l ih =>
      intro l' hp hp' hr
      cases l' with
      | nil => simpa [Memory.read_cons] using hr c.1
      | cons d l' =>
        rw [List.pairwise_cons] at hp hp'
        have none_of_lt : ∀ (x : Memory) (k a : Nat), (∀ e ∈ x, k < e.1) → a ≤ k → x.read a = none :=
          fun x k a hx ha => Memory.read_eq_none x a fun e he => by have := hx e he; omega
        have hcd : c.1 = d.1 := by
          rcases Nat.lt_trichotomy c.1 d.1 with hlt | heq | hlt
          · have := hr c.1
            rw [Memory.read_cons, if_pos rfl, Memory.read_cons, if_neg (by omega),
              none_of_lt l' d.1 c.1 hp'.1 (by omega)] at this
            cases this
          · exact heq
          · have := hr d.1
            rw [Memory.read_cons, if_neg (by omega), none_of_lt l c.1 d.1 hp.1 (by omega),
              Memory.read_cons, if_pos rfl] at this
            cases this
        have hv : c.2 = d.2 := by
          have := hr c.1
          rw [Memory.read_cons, if_pos rfl, Memory.read_cons, if_pos hcd] at this
          exact Option.some.inj this
        have hl : l = l' := by
          refine ih l' hp.2 hp'.2 fun a => ?_
          rcases Nat.lt_or_ge c.1 a with hlt | hge
          · have := hr a
            rwa [Memory.read_cons, if_neg (by omega), Memory.read_cons, if_neg (by omega)] at this
          · rw [none_of_lt l c.1 a hp.1 hge, none_of_lt l' d.1 a hp'.1 (by omega)]
        rw [hl, Prod.ext hcd hv]
  exact key m m' hm.1 hm'.1 h

/-! ## Table reads of a state -/

theorem State.fwdAt_of_read (s : State) (i v : Byte) (h : s.fwd.read i.toNat = some v) : s.fwdAt i = v := by
  simp [State.fwdAt, h]

theorem State.invAt_of_read (s : State) (i v : Byte) (h : s.inv.read i.toNat = some v) : s.invAt i = v := by
  simp [State.invAt, h]

/-- After SETKEY's load the forward table is the key's permutation (`10_state.md` rule R21). -/
@[simp] theorem State.loadKey_fwdAt (s : State) (k i : Byte) : (s.loadKey k).fwdAt i = swizzle i k :=
  State.fwdAt_of_read _ _ _ (by rw [State.loadKey_fwd]; exact Memory.read_rewrite _ _ i)

/-- After SETKEY's load the inverse table is the key's inverse permutation (`10_state.md` rule R21). -/
@[simp] theorem State.loadKey_invAt (s : State) (k i : Byte) : (s.loadKey k).invAt i = unswizzle i k :=
  State.invAt_of_read _ _ _ (by rw [State.loadKey_inv]; exact Memory.read_rewrite _ _ i)

end Sys2Proof.Machine
end

