-- ==== Sys2Proof/Laws/Exec.lean ====
section
/-! SUPPORT. What each shared operation and each meaning can do, said once: if it answers a next state, one of these cases holds.
Later proofs cite these and do not unfold the meanings. -/

namespace Sys2Proof.Machine

/-! ## Shared operations -/

@[simp] theorem State.check_true (s : State) (c : FaultCode) (t : State) : s.check true c t = .next (s.takeFault c) := rfl

@[simp] theorem State.check_false (s : State) (c : FaultCode) (t : State) : s.check false c t = .next t := rfl

/-- A checked operation faults or has its effect. -/
theorem State.check_cases {s t u : State} {bad : Bool} {c : FaultCode} (h : s.check bad c t = .next u) :
    (bad = true ∧ u = s.takeFault c) ∨ (bad = false ∧ u = t) := by
  cases bad
  · exact .inr ⟨rfl, (Host.Outcome.next.inj h).symm⟩
  · exact .inl ⟨rfl, (Host.Outcome.next.inj h).symm⟩

/-- No fault has the code of an ok step. -/
theorem FaultCode.code_ne_zero (c : FaultCode) : c.code ≠ 0 := by cases c <;> decide

/-- Fault codes are at most 5 (`60_exceptions.md` rule R144). -/
theorem FaultCode.code_le (c : FaultCode) : c.code ≤ 5#4 := by cases c <;> decide

/-- Distinct faults have distinct codes. -/
theorem FaultCode.code_inj {c d : FaultCode} (h : c.code = d.code) : c = d := by
  cases c <;> cases d <;> first | rfl | exact absurd h (by decide)

/-- The three classes of a body byte, exclusive and exhaustive (`43_rx_framer.md` rule R123). -/
theorem State.classByte_cases (s : State) (p : Byte) :
    (isStart p = true ∧ s.classByte p = s.startRun) ∨
    (isStart p = false ∧ s.incmd = true ∧ s.classByte p = s.contRun) ∨
    (isStart p = false ∧ s.incmd = false ∧ s.classByte p = s.orphanByte) := by
  unfold State.classByte classify
  cases hp : isStart p <;> cases hi : s.incmd <;> simp

/-- The mode a two-bit operand names. -/
theorem RxMode.ofBits_cases (m : BitVec 2) :
    (m = 0#2 ∧ RxMode.ofBits m = some .plain) ∨ (m = 1#2 ∧ RxMode.ofBits m = some .unframed) ∨
    (m = 2#2 ∧ RxMode.ofBits m = some .framed) ∨ (m = 3#2 ∧ RxMode.ofBits m = none) := by
  revert m; decide

/-! ## The meanings that can take only one path -/

theorem exec_nop (s : State) : exec .nop s = .next s.endOk := rfl

theorem exec_errack (s : State) : exec .errack s = .next s.ackFault := rfl

theorem exec_setkey (k : Byte) (s : State) : exec (.setkey k) s = .next ((s.loadKey k).result 0 0) := rfl

theorem exec_enc35 (v : BitVec 35) (s : State) : exec (.enc35 v) s = .next (s.result (enc35Bytes v) 5) := rfl

theorem exec_enc32s (x : BitVec 32) (s : State) :
    exec (.enc32s x) s = .next (s.result (enc35Bytes (sext35 x)) 5) := rfl

theorem exec_txopen (s : State) : exec .txopen s = .next (s.clearTx.result 0 0) := rfl

theorem exec_txck (s : State) : exec .txck s = .next (s.result (zext40 s.txsum) 2) := rfl

/-! ## The meanings with one check -/

theorem exec_swz (b : Byte) (s : State) :
    exec (.swz b) s = s.check (!s.keyv) .noKey (s.result (zext40 (s.fwdAt b)) 1) := rfl

theorem exec_uswz (c : Byte) (s : State) :
    exec (.uswz c) s = s.check (!s.keyv) .noKey (s.result (zext40 (s.invAt c)) 1) := rfl

theorem exec_txb (p : Byte) (s : State) :
    exec (.txb p) s = s.check (!s.keyv) .noKey ((s.sumTx p).result (zext40 (s.fwdAt p)) 1) := rfl

theorem exec_enc14 (v : BitVec 35) (s : State) :
    exec (.enc14 v) s = s.check (outOfRange14 v) .range (s.result (zext40 (enc14Bytes v)) 2) := rfl

theorem exec_dec14 (g0 g1 : Byte) (s : State) :
    exec (.dec14 g0 g1) s = s.check ([g0, g1].any topBit) .badGroup (s.result (zext40 (dec14Value g0 g1)) 0) := rfl

theorem exec_dec35 (g0 g1 g2 g3 g4 : Byte) (s : State) :
    exec (.dec35 g0 g1 g2 g3 g4) s
      = s.check ([g0, g1, g2, g3, g4].any topBit) .badGroup (s.result (zext40 (dec35Value g0 g1 g2 g3 g4)) 0) := rfl

theorem exec_dec32s (g0 g1 g2 g3 g4 : Byte) (s : State) :
    exec (.dec32s g0 g1 g2 g3 g4) s
      = s.check ([g0, g1, g2, g3, g4].any topBit) .badGroup
          ((s.setNc (nonCanonical (dec35Value g0 g1 g2 g3 g4))).result
            (sext40 (low32 (dec35Value g0 g1 g2 g3 g4))) 0) := rfl

/-! ## The receive path -/

theorem exec_rxopen_reserved (s : State) : exec (.rxopen 3#2) s = .next (s.takeFault .illegalOp) := rfl

theorem exec_rxopen_plain (s : State) : exec (.rxopen 0#2) s = .next ((s.openUnit .plain).result 0 0) := rfl

theorem exec_rxopen_unframed (s : State) :
    exec (.rxopen 1#2) s = s.check (!s.keyv) .noKey ((s.openUnit .unframed).result 0 0) := rfl

theorem exec_rxopen_framed (s : State) :
    exec (.rxopen 2#2) s = s.check (!s.keyv) .noKey ((s.openUnit .framed).result 0 0) := rfl

/-- RXOPEN faults, or opens a unit in a mode its key allows (`43_rx_framer.md` rule R119). -/
theorem exec_rxopen_cases {m : BitVec 2} {s t : State} (h : exec (.rxopen m) s = .next t) :
    (m = 3#2 ∧ t = s.takeFault .illegalOp) ∨
    (m ≠ 3#2 ∧ m ≠ 0#2 ∧ s.keyv = false ∧ t = s.takeFault .noKey) ∨
    (∃ mode, RxMode.ofBits m = some mode ∧ (mode = .plain ∨ s.keyv = true) ∧ t = (s.openUnit mode).result 0 0) := by
  rcases RxMode.ofBits_cases m with ⟨rfl, hm⟩ | ⟨rfl, hm⟩ | ⟨rfl, hm⟩ | ⟨rfl, hm⟩
  · exact .inr (.inr ⟨.plain, hm, .inl rfl, (Host.Outcome.next.inj h).symm⟩)
  · rcases State.check_cases h with ⟨hk, rfl⟩ | ⟨hk, rfl⟩
    · exact .inr (.inl ⟨by decide, by decide, by simpa using hk, rfl⟩)
    · exact .inr (.inr ⟨.unframed, hm, .inr (by simpa using hk), rfl⟩)
  · rcases State.check_cases h with ⟨hk, rfl⟩ | ⟨hk, rfl⟩
    · exact .inr (.inl ⟨by decide, by decide, by simpa using hk, rfl⟩)
    · exact .inr (.inr ⟨.framed, hm, .inr (by simpa using hk), rfl⟩)
  · exact .inl ⟨rfl, (Host.Outcome.next.inj h).symm⟩

theorem exec_rxb_closed {s : State} (b : Byte) (h : s.rxph = .closed) :
    exec (.rxb b) s = .next (s.takeFault .notOpen) := by
  simp only [exec, execRxb, h]

theorem exec_rxb_hdr0 {s : State} (b : Byte) (h : s.rxph = .hdr0) :
    exec (.rxb b) s = .next ((s.headerHigh b).result 0 0) := by
  simp only [exec, execRxb, h]

theorem exec_rxb_hdr1 {s : State} (b : Byte) (h : s.rxph = .hdr1) :
    exec (.rxb b) s = .next ((s.headerLow b).result 0 0) := by
  simp only [exec, execRxb, h]

theorem exec_rxb_body {s : State} (b : Byte) (h : s.rxph = .body) :
    exec (.rxb b) s
      = .next (((s.sumBody (s.plainByte b)).classByte (s.plainByte b)).result (zext40 (s.plainByte b)) 1) := by
  simp only [exec, execRxb, h]

/-- RXB by phase (`43_rx_framer.md` rules R120 to R123). -/
theorem exec_rxb_cases {b : Byte} {s t : State} (h : exec (.rxb b) s = .next t) :
    (s.rxph = .closed ∧ t = s.takeFault .notOpen) ∨
    (s.rxph = .hdr0 ∧ t = (s.headerHigh b).result 0 0) ∨
    (s.rxph = .hdr1 ∧ t = (s.headerLow b).result 0 0) ∨
    (s.rxph = .body ∧
      t = ((s.sumBody (s.plainByte b)).classByte (s.plainByte b)).result (zext40 (s.plainByte b)) 1) := by
  cases hp : s.rxph
  · rw [exec_rxb_closed b hp] at h; exact .inl ⟨rfl, (Host.Outcome.next.inj h).symm⟩
  · rw [exec_rxb_hdr0 b hp] at h; exact .inr (.inl ⟨rfl, (Host.Outcome.next.inj h).symm⟩)
  · rw [exec_rxb_hdr1 b hp] at h; exact .inr (.inr (.inl ⟨rfl, (Host.Outcome.next.inj h).symm⟩))
  · rw [exec_rxb_body b hp] at h; exact .inr (.inr (.inr ⟨rfl, (Host.Outcome.next.inj h).symm⟩))

theorem exec_rxend_closed {s : State} (h : s.rxph = .closed) : exec .rxend s = .next (s.takeFault .notOpen) := by
  simp only [exec, execRxend, h]

theorem exec_rxend_header {s : State} (h : s.rxph = .hdr0 ∨ s.rxph = .hdr1) :
    exec .rxend s = .next (s.endShort.result 0 0) := by
  rcases h with h | h <;> simp only [exec, execRxend, h]

theorem exec_rxend_unframed {s : State} (h : s.rxph = .body) (hm : s.rxm ≠ .framed) :
    exec .rxend s = .next ((s.closeUnit .noVerdict).result 0 0) := by
  cases hr : s.rxm
  · simp only [exec, execRxend, h, hr]
  · simp only [exec, execRxend, h, hr]
  · exact absurd hr hm

theorem exec_rxend_framed {s : State} (h : s.rxph = .body) (hm : s.rxm = .framed) :
    exec .rxend s = .next ((s.closeUnit s.frameVerdict).result (zext40 (s.fwdAt s.replyToken)) 1) := by
  simp only [exec, execRxend, h, hm]

/-- RXEND by phase and mode (`43_rx_framer.md` rules R125 to R129). -/
theorem exec_rxend_cases {s t : State} (h : exec .rxend s = .next t) :
    (s.rxph = .closed ∧ t = s.takeFault .notOpen) ∨
    ((s.rxph = .hdr0 ∨ s.rxph = .hdr1) ∧ t = s.endShort.result 0 0) ∨
    (s.rxph = .body ∧ s.rxm ≠ .framed ∧ t = (s.closeUnit .noVerdict).result 0 0) ∨
    (s.rxph = .body ∧ s.rxm = .framed ∧
      t = (s.closeUnit s.frameVerdict).result (zext40 (s.fwdAt s.replyToken)) 1) := by
  cases hp : s.rxph
  · rw [exec_rxend_closed hp] at h; exact .inl ⟨rfl, (Host.Outcome.next.inj h).symm⟩
  · rw [exec_rxend_header (.inl hp)] at h
    exact .inr (.inl ⟨.inl rfl, (Host.Outcome.next.inj h).symm⟩)
  · rw [exec_rxend_header (.inr hp)] at h
    exact .inr (.inl ⟨.inr rfl, (Host.Outcome.next.inj h).symm⟩)
  · by_cases hm : s.rxm = .framed
    · rw [exec_rxend_framed hp hm] at h
      exact .inr (.inr (.inr ⟨rfl, hm, (Host.Outcome.next.inj h).symm⟩))
    · rw [exec_rxend_unframed hp hm] at h
      exact .inr (.inr (.inl ⟨rfl, hm, (Host.Outcome.next.inj h).symm⟩))

/-! ## Everything an operation can do, said once -/

/-- The cases of an operation: `ExecCase s i t` lists, operation by operation, each way `exec i s` can answer `t`. -/
inductive ExecCase (s : State) : Instr → State → Prop where
  | nop : ExecCase s .nop s.endOk
  | errack : ExecCase s .errack s.ackFault
  | setkey (k : Byte) : ExecCase s (.setkey k) ((s.loadKey k).result 0 0)
  | swz (b : Byte) (hk : s.keyv = true) : ExecCase s (.swz b) (s.result (zext40 (s.fwdAt b)) 1)
  | swzNoKey (b : Byte) (hk : s.keyv = false) : ExecCase s (.swz b) (s.takeFault .noKey)
  | uswz (c : Byte) (hk : s.keyv = true) : ExecCase s (.uswz c) (s.result (zext40 (s.invAt c)) 1)
  | uswzNoKey (c : Byte) (hk : s.keyv = false) : ExecCase s (.uswz c) (s.takeFault .noKey)
  | enc14 (v : BitVec 35) (hv : outOfRange14 v = false) : ExecCase s (.enc14 v) (s.result (zext40 (enc14Bytes v)) 2)
  | enc14Range (v : BitVec 35) (hv : outOfRange14 v = true) : ExecCase s (.enc14 v) (s.takeFault .range)
  | enc35 (v : BitVec 35) : ExecCase s (.enc35 v) (s.result (enc35Bytes v) 5)
  | enc32s (x : BitVec 32) : ExecCase s (.enc32s x) (s.result (enc35Bytes (sext35 x)) 5)
  | dec14 (g0 g1 : Byte) (hg : [g0, g1].any topBit = false) :
      ExecCase s (.dec14 g0 g1) (s.result (zext40 (dec14Value g0 g1)) 0)
  | dec14Bad (g0 g1 : Byte) (hg : [g0, g1].any topBit = true) : ExecCase s (.dec14 g0 g1) (s.takeFault .badGroup)
  | dec35 (g0 g1 g2 g3 g4 : Byte) (hg : [g0, g1, g2, g3, g4].any topBit = false) :
      ExecCase s (.dec35 g0 g1 g2 g3 g4) (s.result (zext40 (dec35Value g0 g1 g2 g3 g4)) 0)
  | dec35Bad (g0 g1 g2 g3 g4 : Byte) (hg : [g0, g1, g2, g3, g4].any topBit = true) :
      ExecCase s (.dec35 g0 g1 g2 g3 g4) (s.takeFault .badGroup)
  | dec32s (g0 g1 g2 g3 g4 : Byte) (hg : [g0, g1, g2, g3, g4].any topBit = false) :
      ExecCase s (.dec32s g0 g1 g2 g3 g4)
        ((s.setNc (nonCanonical (dec35Value g0 g1 g2 g3 g4))).result (sext40 (low32 (dec35Value g0 g1 g2 g3 g4))) 0)
  | dec32sBad (g0 g1 g2 g3 g4 : Byte) (hg : [g0, g1, g2, g3, g4].any topBit = true) :
      ExecCase s (.dec32s g0 g1 g2 g3 g4) (s.takeFault .badGroup)
  | rxopenPlain : ExecCase s (.rxopen 0#2) ((s.openUnit .plain).result 0 0)
  | rxopenUnframed (hk : s.keyv = true) : ExecCase s (.rxopen 1#2) ((s.openUnit .unframed).result 0 0)
  | rxopenUnframedNoKey (hk : s.keyv = false) : ExecCase s (.rxopen 1#2) (s.takeFault .noKey)
  | rxopenFramed (hk : s.keyv = true) : ExecCase s (.rxopen 2#2) ((s.openUnit .framed).result 0 0)
  | rxopenFramedNoKey (hk : s.keyv = false) : ExecCase s (.rxopen 2#2) (s.takeFault .noKey)
  | rxopenReserved : ExecCase s (.rxopen 3#2) (s.takeFault .illegalOp)
  | rxbClosed (b : Byte) (hp : s.rxph = .closed) : ExecCase s (.rxb b) (s.takeFault .notOpen)
  | rxbHdr0 (b : Byte) (hp : s.rxph = .hdr0) : ExecCase s (.rxb b) ((s.headerHigh b).result 0 0)
  | rxbHdr1 (b : Byte) (hp : s.rxph = .hdr1) : ExecCase s (.rxb b) ((s.headerLow b).result 0 0)
  | rxbStart (b : Byte) (hp : s.rxph = .body) (hs : isStart (s.plainByte b) = true) :
      ExecCase s (.rxb b) ((s.sumBody (s.plainByte b)).startRun.result (zext40 (s.plainByte b)) 1)
  | rxbCont (b : Byte) (hp : s.rxph = .body) (hs : isStart (s.plainByte b) = false) (hi : s.incmd = true) :
      ExecCase s (.rxb b) ((s.sumBody (s.plainByte b)).contRun.result (zext40 (s.plainByte b)) 1)
  | rxbOrphan (b : Byte) (hp : s.rxph = .body) (hs : isStart (s.plainByte b) = false) (hi : s.incmd = false) :
      ExecCase s (.rxb b) ((s.sumBody (s.plainByte b)).orphanByte.result (zext40 (s.plainByte b)) 1)
  | rxendClosed (hp : s.rxph = .closed) : ExecCase s .rxend (s.takeFault .notOpen)
  | rxendShort (hp : s.rxph = .hdr0 ∨ s.rxph = .hdr1) : ExecCase s .rxend (s.endShort.result 0 0)
  | rxendUnframed (hp : s.rxph = .body) (hm : s.rxm ≠ .framed) :
      ExecCase s .rxend ((s.closeUnit .noVerdict).result 0 0)
  | rxendFramed (hp : s.rxph = .body) (hm : s.rxm = .framed) :
      ExecCase s .rxend ((s.closeUnit s.frameVerdict).result (zext40 (s.fwdAt s.replyToken)) 1)
  | txopen : ExecCase s .txopen (s.clearTx.result 0 0)
  | txb (p : Byte) (hk : s.keyv = true) : ExecCase s (.txb p) ((s.sumTx p).result (zext40 (s.fwdAt p)) 1)
  | txbNoKey (p : Byte) (hk : s.keyv = false) : ExecCase s (.txb p) (s.takeFault .noKey)
  | txck : ExecCase s .txck (s.result (zext40 s.txsum) 2)

/-- A next state of an operation is one of its cases. -/
theorem exec_case {i : Instr} {s t : State} (h : exec i s = .next t) : ExecCase s i t := by
  cases i with
  | nop => cases h; exact .nop
  | errack => cases h; exact .errack
  | setkey k => cases h; exact .setkey k
  | swz b =>
    rcases State.check_cases h with ⟨hk, rfl⟩ | ⟨hk, rfl⟩
    · exact .swzNoKey b (by simpa using hk)
    · exact .swz b (by simpa using hk)
  | uswz c =>
    rcases State.check_cases h with ⟨hk, rfl⟩ | ⟨hk, rfl⟩
    · exact .uswzNoKey c (by simpa using hk)
    · exact .uswz c (by simpa using hk)
  | enc14 v =>
    rcases State.check_cases h with ⟨hv, rfl⟩ | ⟨hv, rfl⟩
    · exact .enc14Range v hv
    · exact .enc14 v hv
  | enc35 v => cases h; exact .enc35 v
  | enc32s x => cases h; exact .enc32s x
  | dec14 g0 g1 =>
    rcases State.check_cases h with ⟨hg, rfl⟩ | ⟨hg, rfl⟩
    · exact .dec14Bad g0 g1 hg
    · exact .dec14 g0 g1 hg
  | dec35 g0 g1 g2 g3 g4 =>
    rcases State.check_cases h with ⟨hg, rfl⟩ | ⟨hg, rfl⟩
    · exact .dec35Bad g0 g1 g2 g3 g4 hg
    · exact .dec35 g0 g1 g2 g3 g4 hg
  | dec32s g0 g1 g2 g3 g4 =>
    rcases State.check_cases h with ⟨hg, rfl⟩ | ⟨hg, rfl⟩
    · exact .dec32sBad g0 g1 g2 g3 g4 hg
    · exact .dec32s g0 g1 g2 g3 g4 hg
  | rxopen m =>
    rcases RxMode.ofBits_cases m with ⟨rfl, -⟩ | ⟨rfl, -⟩ | ⟨rfl, -⟩ | ⟨rfl, -⟩
    · cases h; exact .rxopenPlain
    · rcases State.check_cases h with ⟨hk, rfl⟩ | ⟨hk, rfl⟩
      · exact .rxopenUnframedNoKey (by simpa using hk)
      · exact .rxopenUnframed (by simpa using hk)
    · rcases State.check_cases h with ⟨hk, rfl⟩ | ⟨hk, rfl⟩
      · exact .rxopenFramedNoKey (by simpa using hk)
      · exact .rxopenFramed (by simpa using hk)
    · cases h; exact .rxopenReserved
  | rxb b =>
    rcases exec_rxb_cases h with ⟨hp, rfl⟩ | ⟨hp, rfl⟩ | ⟨hp, rfl⟩ | ⟨hp, rfl⟩
    · exact .rxbClosed b hp
    · exact .rxbHdr0 b hp
    · exact .rxbHdr1 b hp
    · rcases (s.sumBody (s.plainByte b)).classByte_cases (s.plainByte b) with ⟨hs, hc⟩ | ⟨hs, hi, hc⟩ | ⟨hs, hi, hc⟩
      · rw [hc]; exact .rxbStart b hp hs
      · rw [hc]; exact .rxbCont b hp hs hi
      · rw [hc]; exact .rxbOrphan b hp hs hi
  | rxend =>
    rcases exec_rxend_cases h with ⟨hp, rfl⟩ | ⟨hp, rfl⟩ | ⟨hp, hm, rfl⟩ | ⟨hp, hm, rfl⟩
    · exact .rxendClosed hp
    · exact .rxendShort hp
    · exact .rxendUnframed hp hm
    · exact .rxendFramed hp hm
  | txopen => cases h; exact .txopen
  | txb p =>
    rcases State.check_cases h with ⟨hk, rfl⟩ | ⟨hk, rfl⟩
    · exact .txbNoKey p (by simpa using hk)
    · exact .txb p (by simpa using hk)
  | txck => cases h; exact .txck

/-- Each of an operation's cases is what it answers. -/
theorem exec_of_case {i : Instr} {s t : State} (h : ExecCase s i t) : exec i s = .next t := by
  cases h with
  | swz b hk => simp [exec_swz, hk]
  | swzNoKey b hk => simp [exec_swz, hk]
  | uswz c hk => simp [exec_uswz, hk]
  | uswzNoKey c hk => simp [exec_uswz, hk]
  | enc14 v hv => simp [exec_enc14, hv]
  | enc14Range v hv => simp [exec_enc14, hv]
  | dec14 g0 g1 hg => rw [exec_dec14, hg]; rfl
  | dec14Bad g0 g1 hg => rw [exec_dec14, hg]; rfl
  | dec35 g0 g1 g2 g3 g4 hg => rw [exec_dec35, hg]; rfl
  | dec35Bad g0 g1 g2 g3 g4 hg => rw [exec_dec35, hg]; rfl
  | dec32s g0 g1 g2 g3 g4 hg => rw [exec_dec32s, hg]; rfl
  | dec32sBad g0 g1 g2 g3 g4 hg => rw [exec_dec32s, hg]; rfl
  | rxopenUnframed hk => simp [exec_rxopen_unframed, hk]
  | rxopenUnframedNoKey hk => simp [exec_rxopen_unframed, hk]
  | rxopenFramed hk => simp [exec_rxopen_framed, hk]
  | rxopenFramedNoKey hk => simp [exec_rxopen_framed, hk]
  | rxbClosed b hp => exact exec_rxb_closed b hp
  | rxbHdr0 b hp => exact exec_rxb_hdr0 b hp
  | rxbHdr1 b hp => exact exec_rxb_hdr1 b hp
  | rxbStart b hp hs => simp [exec_rxb_body b hp, State.classByte, classify, hs]
  | rxbCont b hp hs hi => simp [exec_rxb_body b hp, State.classByte, classify, hs, hi]
  | rxbOrphan b hp hs hi => simp [exec_rxb_body b hp, State.classByte, classify, hs, hi]
  | rxendClosed hp => exact exec_rxend_closed hp
  | rxendShort hp => exact exec_rxend_header hp
  | rxendUnframed hp hm => exact exec_rxend_unframed hp hm
  | rxendFramed hp hm => exact exec_rxend_framed hp hm
  | txb p hk => simp [exec_txb, hk]
  | txbNoKey p hk => simp [exec_txb, hk]
  | nop => rfl
  | errack => rfl
  | setkey k => rfl
  | enc35 v => rfl
  | enc32s x => rfl
  | rxopenPlain => rfl
  | rxopenReserved => rfl
  | txopen => rfl
  | txck => rfl

/-! ## One step -/

theorem stepWord_ok {w : OpWord} {i : Instr} (s : State) (h : decode w = .ok i) : stepWord w s = exec i s := by
  simp only [stepWord, h]

theorem stepWord_error {w : OpWord} {r : Reject} (s : State) (h : decode w = .error r) :
    stepWord w s = .next (s.takeFault .illegalOp) := by
  simp only [stepWord, h]

theorem step_idle {s : State} (h : s.input = []) : step s = .next s := by
  simp only [step, State.nextAction, h, List.head?_nil]

theorem step_word {s : State} {w : OpWord} {rest : List HostAction} (h : s.input = .word w :: rest) :
    step s = stepWord w s.taken := by
  simp only [step, State.nextAction, h, List.head?_cons]

theorem step_readReg {s : State} {n : BitVec 4} {rest : List HostAction} (h : s.input = .readReg n :: rest) :
    step s = .next (s.taken.hostRead n) := by
  simp only [step, State.nextAction, h, List.head?_cons]

theorem step_reset {s : State} {rest : List HostAction} (h : s.input = .reset :: rest) :
    step s = .next s.taken.hostReset := by
  simp only [step, State.nextAction, h, List.head?_cons]

/-- A step is idle, or carries out a word, a register read or a reset. -/
theorem step_cases {s t : State} (h : step s = .next t) :
    (s.input = [] ∧ t = s) ∨
    (∃ w rest, s.input = .word w :: rest ∧ stepWord w s.taken = .next t) ∨
    (∃ n rest, s.input = .readReg n :: rest ∧ t = s.taken.hostRead n) ∨
    (∃ rest, s.input = .reset :: rest ∧ t = s.taken.hostReset) := by
  cases hi : s.input with
  | nil =>
    rw [step_idle hi] at h
    exact .inl ⟨rfl, (Host.Outcome.next.inj h).symm⟩
  | cons a rest =>
    cases a with
    | word w =>
      rw [step_word hi] at h
      exact .inr (.inl ⟨w, rest, rfl, h⟩)
    | readReg n =>
      rw [step_readReg hi] at h
      exact .inr (.inr (.inl ⟨n, rest, rfl, (Host.Outcome.next.inj h).symm⟩))
    | reset =>
      rw [step_reset hi] at h
      exact .inr (.inr (.inr ⟨rest, rfl, (Host.Outcome.next.inj h).symm⟩))

/-- The step of a word placed by `withFetchWord` is the step that word makes. -/
theorem step_withFetchWord (s : State) (nbits w : Nat) :
    step (s.withFetchWord nbits w) = stepWord (tableWord nbits w) s :=
  step_word (s := s.issue (tableWord nbits w)) rfl

end Sys2Proof.Machine
end

