-- ==== Sys2Proof/Laws/Keyed.lean ====
section
/-! SUPPORT. What a loaded key gives: SETKEY's effect is a keyed state, and in a keyed state the tables read as the cipher's two
functions (`10_state.md` rule R21). -/

namespace Sys2Proof.Machine

/-- Loading a key leaves that key loaded, from any state. -/
theorem State.loadKey_keyed (s : State) (k : Byte) : (s.loadKey k).Keyed k where
  keyv := rfl
  magic := rfl
  tables := fun i =>
    ⟨Memory.read_rewrite s.fwd (fun b => swizzle b k) i, Memory.read_rewrite s.inv (fun c => unswizzle c k) i⟩

/-- Loading a key keeps the tables' canonical form. -/
theorem State.loadKey_tableForm (s : State) (k : Byte) (h : s.TableForm) : (s.loadKey k).TableForm where
  fwd := Memory.rewrite_wf s.fwd _ h.fwd
  inv := Memory.rewrite_wf s.inv _ h.inv

/-- A keyed state's forward entry is the swizzled byte. -/
theorem State.Keyed.fwdAt_eq {s : State} {m : Byte} (h : s.Keyed m) (b : Byte) : s.fwdAt b = swizzle b m :=
  s.fwdAt_of_read b _ (h.magic ▸ (h.tables b).1)

/-- A keyed state's inverse entry is the unswizzled byte. -/
theorem State.Keyed.invAt_eq {s : State} {m : Byte} (h : s.Keyed m) (c : Byte) : s.invAt c = unswizzle c m :=
  s.invAt_of_read c _ (h.magic ▸ (h.tables c).2)

/-- A key stays loaded where the key, its flag and the tables are unchanged. -/
theorem State.Keyed.of_eq {s t : State} {m : Byte} (h : s.Keyed m) (hk : t.keyv = s.keyv) (hm : t.magic = s.magic)
    (hf : t.fwd = s.fwd) (hi : t.inv = s.inv) : t.Keyed m where
  keyv := hk.trans h.keyv
  magic := hm.trans h.magic
  tables := fun i => by rw [hf, hi, hm]; exact h.tables i

end Sys2Proof.Machine
end

