-- ==== Sys2Proof/Laws/PerInstr.lean ====
section
/-! SUPPORT. Per instruction: the family `OwnRow` says that the word the encoder writes for an instruction selects a row of the
opcode map, and that the operands this row takes from the word are the instruction's own (`30_encoding.md` rules R66 to
R74). -/

namespace Sys2Proof.Laws.OwnRow

/-- The instruction's word selects a row that reads the instruction back. -/
def Statement (i : Instr) : Prop :=
  ∃ r ∈ opcodeMap, r.selects (encode i) = true ∧ r.build (encode i) = i

/-- Row `n` of the map reads an instruction back if the word agrees with its match value above the operand bits. -/
theorem of_row (n : Nat) (hn : n < opcodeMap.length) (i : Instr)
    (hs : (encode i).toNat / 2 ^ opcodeMap[n].format.operandBits
      = opcodeMap[n].pattern.toNat / 2 ^ opcodeMap[n].format.operandBits)
    (hb : opcodeMap[n].build (encode i) = i) : Statement i :=
  ⟨opcodeMap[n], List.getElem_mem hn,
    ((opcodeMap[n]).selects_iff (List.all_eq_true.1 opcodeMap_regular _ (List.getElem_mem hn)) _).2 hs, hb⟩

/-- A row's match value above the operand bits, from the word as a number. -/
theorem div_of_toNat (w : OpWord) (k p a : Nat) (hw : w.toNat = p + a) (ha : a < 2 ^ k) (hp : p % 2 ^ k = 0) :
    w.toNat / 2 ^ k = p / 2 ^ k := by
  obtain ⟨q, hq⟩ := Nat.dvd_of_mod_eq_zero hp
  have hk : 0 < 2 ^ k := Nat.two_pow_pos k
  rw [hw, hq, Nat.mul_add_div hk, Nat.div_eq_of_lt ha, Nat.mul_div_cancel_left _ hk, Nat.add_zero]

theorem nop : Statement .nop := of_row 0 (by decide) _ rfl rfl

theorem errack : Statement .errack := of_row 1 (by decide) _ rfl rfl

theorem fieldB_wordB (op b : Byte) : fieldB (wordB op b) = b := by
  apply BitVec.eq_of_toNat_eq
  rw [fieldB, toNat_slice, wordB_toNat]
  omega

theorem setkey (k : Byte) : Statement (.setkey k) :=
  of_row 2 (by decide) _ (div_of_toNat _ 8 0x100000000000 k.toNat (wordB_toNat _ _) k.isLt rfl)
    (congrArg Instr.setkey (fieldB_wordB _ k))

theorem swz (b : Byte) : Statement (.swz b) :=
  of_row 3 (by decide) _ (div_of_toNat _ 8 0x110000000000 b.toNat (wordB_toNat _ _) b.isLt rfl)
    (congrArg Instr.swz (fieldB_wordB _ b))

theorem uswz (c : Byte) : Statement (.uswz c) :=
  of_row 4 (by decide) _ (div_of_toNat _ 8 0x120000000000 c.toNat (wordB_toNat _ _) c.isLt rfl)
    (congrArg Instr.uswz (fieldB_wordB _ c))

theorem fieldV_wordV (op : Byte) (v : BitVec 35) : fieldV (wordV op v) = v := by
  apply BitVec.eq_of_toNat_eq
  rw [fieldV, toNat_slice, wordV_toNat]
  omega

theorem enc14 (v : BitVec 35) : Statement (.enc14 v) :=
  of_row 5 (by decide) _ (div_of_toNat _ 35 0x200000000000 v.toNat (wordV_toNat _ _) v.isLt rfl)
    (congrArg Instr.enc14 (fieldV_wordV _ v))

theorem enc35 (v : BitVec 35) : Statement (.enc35 v) :=
  of_row 6 (by decide) _ (div_of_toNat _ 35 0x210000000000 v.toNat (wordV_toNat _ _) v.isLt rfl)
    (congrArg Instr.enc35 (fieldV_wordV _ v))

theorem fieldS_wordS (op : Byte) (x : BitVec 32) : fieldS (wordS op x) = x := by
  apply BitVec.eq_of_toNat_eq
  rw [fieldS, toNat_slice, wordS_toNat]
  omega

theorem enc32s (x : BitVec 32) : Statement (.enc32s x) :=
  of_row 7 (by decide) _ (div_of_toNat _ 32 0x220000000000 x.toNat (wordS_toNat _ _) x.isLt rfl)
    (congrArg Instr.enc32s (fieldS_wordS _ x))

theorem fieldG_toNat (n : Nat) (w : OpWord) : (fieldG n w).toNat = w.toNat / 2 ^ (8 * n) % 2 ^ 8 := by
  rw [fieldG, toNat_slice]

theorem dec14 (g0 g1 : Byte) : Statement (.dec14 g0 g1) := by
  refine of_row 8 (by decide) _ (div_of_toNat _ 16 0x280000000000 (g0.toNat * 2 ^ 8 + g1.toNat) ?_ ?_ rfl) ?_
  · rw [encode, wordG2_toNat, Nat.add_assoc]; rfl
  · omega
  · have h0 : fieldG 1 (encode (.dec14 g0 g1)) = g0 := by
      apply BitVec.eq_of_toNat_eq
      rw [fieldG_toNat, encode, wordG2_toNat]; omega
    have h1 : fieldG 0 (encode (.dec14 g0 g1)) = g1 := by
      apply BitVec.eq_of_toNat_eq
      rw [fieldG_toNat, encode, wordG2_toNat]; omega
    exact congrArg₂ Instr.dec14 h0 h1

/-- The five fields of a G5 word are the groups it was made of. -/
theorem fieldG_wordG5 (op g0 g1 g2 g3 g4 : Byte) :
    fieldG 4 (wordG5 op g0 g1 g2 g3 g4) = g0 ∧ fieldG 3 (wordG5 op g0 g1 g2 g3 g4) = g1 ∧
    fieldG 2 (wordG5 op g0 g1 g2 g3 g4) = g2 ∧ fieldG 1 (wordG5 op g0 g1 g2 g3 g4) = g3 ∧
    fieldG 0 (wordG5 op g0 g1 g2 g3 g4) = g4 := by
  refine ⟨?_, ?_, ?_, ?_, ?_⟩ <;> apply BitVec.eq_of_toNat_eq <;>
    rw [fieldG_toNat, wordG5_toNat] <;> omega

/-- The operand part of a G5 word as one number. -/
theorem wordG5_split (op g0 g1 g2 g3 g4 : Byte) :
    (wordG5 op g0 g1 g2 g3 g4).toNat = op.toNat * 2 ^ 40
      + (g0.toNat * 2 ^ 32 + g1.toNat * 2 ^ 24 + g2.toNat * 2 ^ 16 + g3.toNat * 2 ^ 8 + g4.toNat) := by
  rw [wordG5_toNat]; omega

theorem dec35 (g0 g1 g2 g3 g4 : Byte) : Statement (.dec35 g0 g1 g2 g3 g4) := by
  refine of_row 9 (by decide) _
    (div_of_toNat _ 40 0x290000000000
      (g0.toNat * 2 ^ 32 + g1.toNat * 2 ^ 24 + g2.toNat * 2 ^ 16 + g3.toNat * 2 ^ 8 + g4.toNat)
      (wordG5_split _ _ _ _ _ _) ?_ rfl) ?_
  · omega
  · obtain ⟨h0, h1, h2, h3, h4⟩ := fieldG_wordG5 0x29#8 g0 g1 g2 g3 g4
    show Instr.dec35 _ _ _ _ _ = _
    rw [encode, h0, h1, h2, h3, h4]

theorem dec32s (g0 g1 g2 g3 g4 : Byte) : Statement (.dec32s g0 g1 g2 g3 g4) := by
  refine of_row 10 (by decide) _
    (div_of_toNat _ 40 0x2A0000000000
      (g0.toNat * 2 ^ 32 + g1.toNat * 2 ^ 24 + g2.toNat * 2 ^ 16 + g3.toNat * 2 ^ 8 + g4.toNat)
      (wordG5_split _ _ _ _ _ _) ?_ rfl) ?_
  · omega
  · obtain ⟨h0, h1, h2, h3, h4⟩ := fieldG_wordG5 0x2A#8 g0 g1 g2 g3 g4
    show Instr.dec32s _ _ _ _ _ = _
    rw [encode, h0, h1, h2, h3, h4]

theorem fieldM_wordM (op : Byte) (m : BitVec 2) : fieldM (wordM op m) = m := by
  apply BitVec.eq_of_toNat_eq
  rw [fieldM, toNat_slice, wordM_toNat]
  omega

theorem rxopen (m : BitVec 2) : Statement (.rxopen m) :=
  of_row 11 (by decide) _ (div_of_toNat _ 2 0x300000000000 m.toNat (wordM_toNat _ _) m.isLt rfl)
    (congrArg Instr.rxopen (fieldM_wordM _ m))

theorem rxb (b : Byte) : Statement (.rxb b) :=
  of_row 12 (by decide) _ (div_of_toNat _ 8 0x310000000000 b.toNat (wordB_toNat _ _) b.isLt rfl)
    (congrArg Instr.rxb (fieldB_wordB _ b))

theorem rxend : Statement .rxend := of_row 13 (by decide) _ rfl rfl

theorem txopen : Statement .txopen := of_row 14 (by decide) _ rfl rfl

theorem txb (p : Byte) : Statement (.txb p) :=
  of_row 15 (by decide) _ (div_of_toNat _ 8 0x390000000000 p.toNat (wordB_toNat _ _) p.isLt rfl)
    (congrArg Instr.txb (fieldB_wordB _ p))

theorem txck : Statement .txck := of_row 16 (by decide) _ rfl rfl

end Sys2Proof.Laws.OwnRow
end

