-- ==== Sys2Proof/Machine/Assembler.lean ====
section
/-! DEFINITION. The assembler notation of `30_encoding.md` rule R78: the line that stands for an operation. It carries no
behaviour; the word a line assembles to is `encode`'s. Log 16. -/

namespace Sys2Proof.Machine

/-- A hexadecimal digit in capitals. -/
def hexDigit (n : Nat) : Char := if n < 10 then Char.ofNat (48 + n) else Char.ofNat (55 + n)

/-- A byte as two hexadecimal digits. -/
def hexByte (b : Byte) : List Char := [hexDigit (b.toNat / 16), hexDigit (b.toNat % 16)]

/-- Bytes separated by spaces, first wire byte first, each preceded by a space. -/
def hexBytes (bs : List Byte) : List Char := bs.flatMap (fun b => ' ' :: hexByte b)

/-- A decimal number of up to `fuel` digits. -/
def decimal : Nat → Nat → List Char
  | 0, _ => []
  | fuel + 1, n => (if n < 10 then [] else decimal fuel (n / 10)) ++ [Char.ofNat (48 + n % 10)]

/-- An unsigned operand of format V. -/
def unsignedOperand (v : BitVec 35) : List Char := ' ' :: decimal 11 v.toNat

/-- A signed decimal operand of format S. -/
def signedOperand (x : BitVec 32) : List Char :=
  if x.msb then ' ' :: '-' :: decimal 10 (2 ^ 32 - x.toNat) else ' ' :: decimal 10 x.toNat

/-- The line of an operation. RXOPEN with the reserved mode has no line (`95_test_vectors.md` V17). -/
def assemblerLine : Instr → Option (List Char)
  | .nop => some ['N', 'O', 'P']
  | .errack => some ['E', 'R', 'R', 'A', 'C', 'K']
  | .setkey k => some (['S', 'E', 'T', 'K', 'E', 'Y'] ++ hexBytes [k])
  | .swz b => some (['S', 'W', 'Z'] ++ hexBytes [b])
  | .uswz c => some (['U', 'S', 'W', 'Z'] ++ hexBytes [c])
  | .enc14 v => some (['E', 'N', 'C', '1', '4'] ++ unsignedOperand v)
  | .enc35 v => some (['E', 'N', 'C', '3', '5'] ++ unsignedOperand v)
  | .enc32s x => some (['E', 'N', 'C', '3', '2', 'S'] ++ signedOperand x)
  | .dec14 g0 g1 => some (['D', 'E', 'C', '1', '4'] ++ hexBytes [g0, g1])
  | .dec35 g0 g1 g2 g3 g4 => some (['D', 'E', 'C', '3', '5'] ++ hexBytes [g0, g1, g2, g3, g4])
  | .dec32s g0 g1 g2 g3 g4 => some (['D', 'E', 'C', '3', '2', 'S'] ++ hexBytes [g0, g1, g2, g3, g4])
  | .rxopen m =>
    if m = 0#2 then some ['R', 'X', 'O', 'P', 'E', 'N', ' ', 'P', 'L', 'A', 'I', 'N']
    else if m = 1#2 then some ['R', 'X', 'O', 'P', 'E', 'N', ' ', 'U', 'N', 'F', 'R', 'A', 'M', 'E', 'D']
    else if m = 2#2 then some ['R', 'X', 'O', 'P', 'E', 'N', ' ', 'F', 'R', 'A', 'M', 'E', 'D']
    else none
  | .rxb b => some (['R', 'X', 'B'] ++ hexBytes [b])
  | .rxend => some ['R', 'X', 'E', 'N', 'D']
  | .txopen => some ['T', 'X', 'O', 'P', 'E', 'N']
  | .txb p => some (['T', 'X', 'B'] ++ hexBytes [p])
  | .txck => some ['T', 'X', 'C', 'K']

end Sys2Proof.Machine
end

