-- ==== Sys2Proof/Tests/Slice0.lean ====
section
/-! SUPPORT. Tests against the spec's worked examples (`95_test_vectors.md`, cited by their V and P numbers), and, for each
obligation with hypotheses, a named witness that meets them. -/

namespace Sys2Proof.Machine

/-! ## Well-formed operands -/

/-- `30_encoding.md` rule R68: mode 3 is reserved. -/
theorem test_reserved_mode_is_ill_formed : (Instr.rxopen 3).wellFormed = false := by decide

theorem test_defined_modes_are_well_formed :
    (Instr.rxopen 0).wellFormed && (Instr.rxopen 1).wellFormed && (Instr.rxopen 2).wellFormed := by decide

/-! ## Words written out from the formats of `30_encoding.md` rules R66 to R73 -/

theorem test_decode_nop : decode (0b00000000#8 ++ 0#40) = .ok .nop := by decide

theorem test_decode_errack : decode (0b00000001#8 ++ 0#40) = .ok .errack := by decide

theorem test_decode_setkey : decode (0b00010000#8 ++ 0#32 ++ 0b10001000#8) = .ok (.setkey 0x88) := by decide

theorem test_decode_swz : decode (0b00010001#8 ++ 0#32 ++ 0b11011010#8) = .ok (.swz 0xDA) := by decide

theorem test_decode_uswz : decode (0b00010010#8 ++ 0#32 ++ 0b11010100#8) = .ok (.uswz 0xD4) := by decide

theorem test_decode_enc14 : decode (0b00100000#8 ++ 0#5 ++ 0#21 ++ 0b00010101111110#14) = .ok (.enc14 1406) := by decide

theorem test_decode_enc35 :
    decode (0b00100001#8 ++ 0#5 ++ 0b10000000000000000000000000000000001#35) = .ok (.enc35 0x400000001) := by decide

theorem test_decode_enc32s :
    decode (0b00100010#8 ++ 0#8 ++ 0b11111111111111111111110000011000#32) = .ok (.enc32s (-1000)) := by decide

theorem test_decode_dec14 :
    decode (0b00101000#8 ++ 0#24 ++ 0b00001010#8 ++ 0b01111110#8) = .ok (.dec14 0x0A 0x7E) := by decide

theorem test_decode_dec35 :
    decode (0b00101001#8 ++ 1#8 ++ 2#8 ++ 3#8 ++ 4#8 ++ 5#8) = .ok (.dec35 1 2 3 4 5) := by decide

theorem test_decode_dec32s :
    decode (0b00101010#8 ++ 0x7F#8 ++ 0x7F#8 ++ 0x7F#8 ++ 0x78#8 ++ 0x18#8)
      = .ok (.dec32s 0x7F 0x7F 0x7F 0x78 0x18) := by decide

theorem test_decode_rxopen : decode (0b00110000#8 ++ 0#38 ++ 0b10#2) = .ok (.rxopen 2) := by decide

theorem test_decode_rxb : decode (0b00110001#8 ++ 0#32 ++ 0b11010100#8) = .ok (.rxb 0xD4) := by decide

theorem test_decode_rxend : decode (0b00110010#8 ++ 0#40) = .ok .rxend := by decide

theorem test_decode_txopen : decode (0b00111000#8 ++ 0#40) = .ok .txopen := by decide

theorem test_decode_txb : decode (0b00111001#8 ++ 0#32 ++ 0b11011010#8) = .ok (.txb 0xDA) := by decide

theorem test_decode_txck : decode (0b00111010#8 ++ 0#40) = .ok .txck := by decide

/-- V17, V12: an unassigned `OP` and set must-be-zero bits. -/
theorem test_illegal_words_are_rejected_by_name :
    decode 0x020000000000#48 = .error (.unassignedOp 0x02) ∧ decode 0xFF0000000000#48 = .error (.unassignedOp 0xFF) ∧
    decode 0x000000000001#48 = .error (.reservedBits 0x00) ∧ decode 0x100000000100#48 = .error (.reservedBits 0x10) ∧
    decode 0x300000000004#48 = .error (.reservedBits 0x30) ∧ decode 0x280000010000#48 = .error (.reservedBits 0x28) ∧
    decode 0x200800000000#48 = .error (.reservedBits 0x20) ∧ decode 0x220100000000#48 = .error (.reservedBits 0x22) := by
  decide

theorem test_table_word : decodeTableWord 48 0x3900000000DA = some (.txb 0xDA) := by decide

/-- Rule R78's examples of a line. -/
theorem test_assembler_lines :
    assemblerLine (.rxb 0xD4) = some ['R', 'X', 'B', ' ', 'D', '4'] ∧
    assemblerLine (.dec14 0x0A 0x7E) = some ['D', 'E', 'C', '1', '4', ' ', '0', 'A', ' ', '7', 'E'] ∧
    assemblerLine (.enc35 1000) = some ['E', 'N', 'C', '3', '5', ' ', '1', '0', '0', '0'] ∧
    assemblerLine (.enc32s (-1000)) = some ['E', 'N', 'C', '3', '2', 'S', ' ', '-', '1', '0', '0', '0'] := by
  decide +kernel

/-! ## Small states -/

/-- The key of the spec's examples, loaded after reset. -/
def keyed : State := State.reset.loadKey 0x88

/-- A framed unit in its body that announced 0x015D (V16 (a)). -/
def State.bodyOpen (s : State) : State := { s with rxm := .framed, rxph := .body, ckexp := 0x015D }

/-- That unit after its four body bytes. -/
def State.bodyDone (s : State) : State :=
  { s with rxm := .framed, rxph := .body, ckexp := 0x015D, rxsum := 0x015D, clen := 4, incmd := true, res := 0x7E, rlen := 1 }

/-- A framed unit whose header has not begun (V16 (c)). -/
def State.headerOpen (s : State) : State := { s with rxm := .framed, rxph := .hdr0 }

def frameOpen : State := keyed.bodyOpen

def frameDone : State := keyed.bodyDone

def frameHeader : State := keyed.headerOpen

/-- P4 before its first RXB: a plain unit, no key. -/
def plainOpen : State := { State.reset with rxph := .body }

/-- A state that stands at a fault (V17). -/
def faulted : State := { State.reset with err := 2, lasterr := 5 }

/-- What a step left, if it did not stop. -/
def left : Answer → Option State
  | .next t => some t
  | .fault _ => none
  | .refused _ => none

/-! ## The operations, two tests each at most -/

/-- V17: `NOP` clears `LASTERR`, not `ERR`. -/
theorem test_nop : (left (exec .nop faulted)).map (fun t => (t.lasterr, t.err)) = some (0, 2) := by decide

/-- V17: `ERRACK` clears both. -/
theorem test_errack : (left (exec .errack faulted)).map (fun t => (t.lasterr, t.err)) = some (0, 0) := by decide

/-- V3's corner entries: the increment's wrap, the carry into bit 7, the decrement's wrap. -/
theorem test_setkey_tables :
    (left (exec (.setkey 0x88) State.reset)).map (fun t => (t.fwdAt 0xF6, t.fwdAt 0xF7, t.invAt 0x00, t.magic, t.status))
      = some (0x00, 0x80, 0xF6, 0x88, 0x0001) := by decide +kernel

/-- V4: a second SETKEY replaces every entry. -/
theorem test_setkey_again :
    (left (exec (.setkey 0x11) keyed)).map (fun t => (t.fwdAt 0xDA, t.invAt 0xFF, t.fwd.length)) = some (0x4B, 0xEF, 256) := by
  decide +kernel

/-- V1. -/
theorem test_swz : (left (exec (.swz 0xDA) keyed)).map (fun t => (t.res, t.rlen)) = some (0xD4, 1) := by decide +kernel

/-- V17: no key yet. -/
theorem test_swz_no_key :
    (left (exec (.swz 0xDA) State.reset)).map (fun t => (t.res, t.lasterr, t.err)) = some (0, 2, 2) := by decide

/-- V1. -/
theorem test_uswz : (left (exec (.uswz 0x0D) keyed)).map (fun t => (t.res, t.rlen)) = some (0x05, 1) := by decide +kernel

/-- V6. -/
theorem test_enc14 :
    (left (exec (.enc14 16383) State.reset)).map (fun t => (t.res, t.rlen)) = some (0x7F7F, 2) := by decide

/-- V6. -/
theorem test_enc14_range :
    (left (exec (.enc14 16384) State.reset)).map (fun t => (t.res, t.rlen, t.lasterr)) = some (0, 0, 4) := by decide

/-- V7. -/
theorem test_enc35 :
    (left (exec (.enc35 0x7FFFFFFF) State.reset)).map (fun t => (t.res, t.rlen)) = some (0x077F7F7F7F, 5) := by decide

/-- V7. -/
theorem test_enc35_high_bits :
    (left (exec (.enc35 0x100000000) State.reset)).map (fun t => t.res) = some 0x1000000000 := by decide

/-- V8. -/
theorem test_enc32s :
    (left (exec (.enc32s (-1000)) State.reset)).map (fun t => (t.res, t.rlen)) = some (0x7F7F7F7818, 5) := by decide

/-- `42_codec7.md` rule R102: the most negative value. -/
theorem test_enc32s_least :
    (left (exec (.enc32s 0x80000000) State.reset)).map (fun t => t.res) = some 0x7800000000 := by decide

/-- `42_codec7.md` rule R103's example. -/
theorem test_dec14 :
    (left (exec (.dec14 0x0A 0x7E) State.reset)).map (fun t => (t.res, t.rlen)) = some (0x57E, 0) := by decide

/-- V12. -/
theorem test_dec14_bad_group :
    (left (exec (.dec14 0x00 0x80) State.reset)).map (fun t => t.lasterr) = some 5 := by decide

/-- `42_codec7.md` rule R104: not minus one. -/
theorem test_dec35 :
    (left (exec (.dec35 0x7F 0x7F 0x7F 0x7F 0x7F) State.reset)).map (fun t => (t.res, t.rlen))
      = some (0x7FFFFFFFF, 0) := by decide

/-- V12. -/
theorem test_dec35_bad_group :
    (left (exec (.dec35 0x00 0x00 0x80 0x00 0x00) State.reset)).map (fun t => t.lasterr) = some 5 := by decide

/-- `42_codec7.md` rule R105's example. -/
theorem test_dec32s :
    (left (exec (.dec32s 0x7F 0x7F 0x7F 0x78 0x18) State.reset)).map (fun t => (t.res, t.nc))
      = some (0xFFFFFFFC18, false) := by decide

/-- `42_codec7.md` rule R105: a pattern that was not sign-extended. -/
theorem test_dec32s_not_canonical :
    (left (exec (.dec32s 0x10 0x00 0x00 0x00 0x00) State.reset)).map (fun t => (t.res, t.nc)) = some (0, true) := by decide

/-- V16 (a). -/
theorem test_rxopen : (left (exec (.rxopen 2) keyed)).map (fun t => t.status) = some 0x0601 := by decide

/-- V17: mode 3 is tested before the key. -/
theorem test_rxopen_reserved : (left (exec (.rxopen 3) State.reset)).map (fun t => t.lasterr) = some 1 := by decide

/-- V16 (a). -/
theorem test_rxb_header :
    (left (exec (.rxb 0x01) frameHeader)).map (fun t => (t.res, t.rlen, t.status, t.ckexp, t.rxsum))
      = some (0, 0, 0x0A01, 0x0100, 0) := by decide

/-- V16 (b): the damaged last byte starts a run and closes one of length 3. -/
theorem test_rxb_body :
    (left (exec (.rxb 0xF6) { frameOpen with rxsum := 0xDF, clen := 3, incmd := true })).map
      (fun t => (t.res, t.rlen, t.status, t.rxsum, t.clen, t.prevlen)) = some (0xFC, 1, 0x0E07, 0x01DB, 1, 3) := by
  decide +kernel

/-- V16 (a), but for the response byte, whose token is OPEN. -/
theorem test_rxend_match :
    (left (exec .rxend frameDone)).map (fun t => (t.rlen, t.status, t.ckexp, t.rxsum, t.clen, t.prevlen))
      = some (1, 0x0241, 0x015D, 0x015D, 0, 4) := by decide +kernel

/-- V16 (c). -/
theorem test_rxend_short :
    (left (exec .rxend frameHeader)).map (fun t => (t.res, t.rlen, t.status)) = some (0, 0, 0x02C1) := by decide

/-- `44_tx_packer.md` rule R135's example. -/
theorem test_txopen : (left (exec .txopen { keyed with txsum := 0x015D })).map (fun t => t.txsum) = some 0 := by decide

/-- V18. -/
theorem test_txb :
    (left (exec (.txb 0x7E) { keyed with txsum := 0x00DF })).map (fun t => (t.res, t.rlen, t.txsum))
      = some (0xF7, 1, 0x015D) := by decide +kernel

/-- V17: a fault adds nothing to the sum. -/
theorem test_txb_no_key :
    (left (exec (.txb 0x01) State.reset)).map (fun t => (t.txsum, t.lasterr)) = some (0, 2) := by decide

/-- V18. -/
theorem test_txck :
    (left (exec .txck { keyed with txsum := 0x015D })).map (fun t => (t.res, t.rlen, t.txsum))
      = some (0x015D, 2, 0x015D) := by decide

/-! ## The host's actions -/

/-- V17: a word with a must-be-zero bit set. -/
theorem test_step_illegal :
    (left (step (State.reset.withFetchWord 48 0x3A0000000001))).map (fun t => (t.lasterr, t.rlen)) = some (1, 0) := by decide

theorem test_step_runs_placed_word :
    (left (step (State.reset.withFetchWord 48 0x3A0000000000))).map (fun t => (t.lasterr, t.rlen)) = some (0, 2) := by decide

/-- `10_state.md` rule R34: register 6 is `CKEXP`, register 11 reads as 0. -/
theorem test_step_read :
    (left (step { frameOpen with input := [.readReg 6] })).bind (fun t => t.readOut) = some 0x015D ∧
    (left (step { frameOpen with input := [.readReg 11] })).bind (fun t => t.readOut) = some 0 := by decide

/-- `10_state.md` rule R39. -/
theorem test_step_reset :
    (left (step { frameDone with input := [.reset] })).map (fun t => (t.status, t.rxsum, t.res, t.ckexp)) = some (0, 0, 0, 0) := by
  decide

/-! ## Pure functions -/

/-- V13. -/
theorem test_tokenize :
    tokenize [0x05, 0x7E, 0xDA, 0x00] = ([0x05, 0x7E], [[0xDA, 0x00]]) ∧
    tokenize [0xD8, 0x80, 0x12] = ([], [[0xD8], [0x80, 0x12]]) := by decide

/-- V15. -/
theorem test_cksum : cksum [0xDA, 0x00, 0x05, 0x7E] = 0x015D ∧ cksum (List.replicate 258 0xFF) = 0x00FE := by
  decide +kernel

/-- V18: the frame of the known vector. -/
theorem test_packet_frame :
    packetFrame [0xDA, 0x00, 0x05, 0x7E] 0x88 = [0x01, 0x5D, 0xD4, 0x89, 0x0D, 0xF7] := by decide

/-! ## Witnesses for the hypotheses of the obligations -/

theorem keyed_keyed : keyed.Keyed 0x88 := State.reset.loadKey_keyed 0x88

theorem keyed_tableForm : keyed.TableForm := State.reset.loadKey_tableForm 0x88 ⟨Memory.wf_nil, Memory.wf_nil⟩

theorem frameDone_keyed : frameDone.Keyed 0x88 := State.Keyed.of_eq (t := keyed.bodyDone) keyed_keyed rfl rfl rfl rfl

theorem reset_inv : State.reset.Inv := by
  constructor
  case tables => exact fun h => nomatch h
  all_goals decide

theorem plainOpen_inv : plainOpen.Inv := by
  constructor
  case tables => exact fun h => nomatch h
  all_goals decide

theorem frameHeader_inv : frameHeader.Inv := by
  constructor
  case tables => exact fun _ => (State.Keyed.of_eq (t := keyed.headerOpen) keyed_keyed rfl rfl rfl rfl).tables
  all_goals decide

theorem frameDone_inv : frameDone.Inv := by
  constructor
  case tables => exact fun _ => frameDone_keyed.tables
  all_goals decide

/-- The word a host issues changes no invariant. -/
theorem issue_inv {s : State} (h : s.Inv) (w : OpWord) : (s.issue w).Inv := ⟨h.1, h.2, h.3, h.4, h.5, h.6, h.7, h.8, h.9⟩

theorem issue_tableForm {s : State} (h : s.TableForm) (w : OpWord) : (s.issue w).TableForm := ⟨h.1, h.2⟩

/-- A word in a fresh host's list makes a step with a next state. -/
theorem step_issue_next (s : State) (w : OpWord) (i : Instr) (t : State) (hw : decode w = .ok i)
    (h : exec i (s.issue w).taken = .next t) : ∃ u, step (s.issue w) = .next u :=
  ⟨t, (step_word rfl).trans ((stepWord_ok _ hw).trans h)⟩

/-- Words no row of which is selected, at both ends of the `OP` range and just above an operand. -/
theorem illegal_words :
    (¬ ∃ i, decode 0x020000000000#48 = .ok i) ∧ (¬ ∃ i, decode 0xFF0000000000#48 = .ok i) ∧
    ¬ ∃ i, decode 0x200800000000#48 = .ok i := by
  refine ⟨?_, ?_, ?_⟩ <;> (rintro ⟨i, h⟩; revert h)
  · rw [show decode 0x020000000000#48 = .error (.unassignedOp 0x02) by decide]; exact fun h => nomatch h
  · rw [show decode 0xFF0000000000#48 = .error (.unassignedOp 0xFF) by decide]; exact fun h => nomatch h
  · rw [show decode 0x200800000000#48 = .error (.reservedBits 0x20) by decide]; exact fun h => nomatch h

theorem witness_EncodeOfDecodeIsWord : decode 0x2A7F7F7F7818#48 = .ok (.dec32s 0x7F 0x7F 0x7F 0x78 0x18) := by decide

theorem witness_IllegalWordsFaultAndDoNothingElse : ¬ ∃ i, decode 0x020000000000#48 = .ok i := illegal_words.1

/-- A fault with `ERR` clear, and one with `ERR` set. -/
theorem witness_FaultWritesOnlyFaultRegisters :
    (∃ t, stepWord 0x3100000000D4#48 State.reset = .next t ∧ t.lasterr ≠ 0) ∧
    ∃ t, stepWord 0x3100000000D4#48 faulted = .next t ∧ t.lasterr ≠ 0 := ⟨⟨_, rfl, by decide⟩, ⟨_, rfl, by decide⟩⟩

/-- Each code is raised: the words of V17. -/
theorem witness_FaultCodesAreRaisedExactlyWhen :
    (∃ t, stepWord 0x300000000003#48 State.reset = .next t ∧ t.lasterr = 1) ∧
    (∃ t, stepWord 0x300000000002#48 State.reset = .next t ∧ t.lasterr = 2) ∧
    (∃ t, stepWord 0x320000000000#48 State.reset = .next t ∧ t.lasterr = 3) ∧
    (∃ t, stepWord 0x200000004000#48 State.reset = .next t ∧ t.lasterr = 4) ∧
    (∃ t, stepWord 0x280000008000#48 State.reset = .next t ∧ t.lasterr = 5) ∧
    ∃ t, stepWord 0x200000003FFF#48 State.reset = .next t ∧ t.lasterr = 0 := by
  refine ⟨⟨_, rfl, ?_⟩, ⟨_, rfl, ?_⟩, ⟨_, rfl, ?_⟩, ⟨_, rfl, ?_⟩, ⟨_, rfl, ?_⟩, ⟨_, rfl, ?_⟩⟩ <;> decide

theorem witness_ErrKeepsFirstFaultAndBlocksNothing :
    (∃ t, exec (.swz 0) State.reset = .next t) ∧ (∃ t, exec .errack faulted = .next t) ∧
    (¬ ∃ i, decode 0x020000000000#48 = .ok i) ∧ ∃ t, stepWord 0x020000000000#48 faulted = .next t :=
  ⟨⟨_, rfl⟩, ⟨_, rfl⟩, illegal_words.1, ⟨_, rfl⟩⟩

theorem witness_ZeroByteRevealsKey : keyed.Keyed 0x88 := keyed_keyed

theorem witness_SetkeyLoadsKeyAndBothTables : keyed.Keyed 0x88 ∧ keyed.TableForm ∧ 256 ≤ 256 :=
  ⟨keyed_keyed, keyed_tableForm, le_refl _⟩

theorem witness_SwzReturnsForwardEntry : keyed.keyv = true ∧ State.reset.keyv = false ∧ keyed.Keyed 0x88 :=
  ⟨rfl, rfl, keyed_keyed⟩

theorem witness_UswzReturnsInverseEntry : keyed.keyv = true ∧ State.reset.keyv = false ∧ keyed.Keyed 0x88 :=
  ⟨rfl, rfl, keyed_keyed⟩

theorem witness_LookupsAfterSetkeyMatchFunctions : State.reset.keyv = false := rfl

theorem witness_OnlySetkeyStoresToTables : (∃ t, exec (.txb 1) keyed = .next t) ∧ ∀ k, Instr.txb 1 ≠ .setkey k :=
  ⟨⟨_, exec_of_case (.txb 1 rfl)⟩, fun _ h => nomatch h⟩

theorem witness_UnkeyedTablesAreNotObservable :
    (∃ t, exec (.setkey 0) State.reset = .next t) ∧ (¬ ∃ i, decode 0x020000000000#48 = .ok i) ∧
    (∃ t, stepWord 0x020000000000#48 State.reset = .next t) ∧
    (State.reset.keyv = false ∧ needsKey (.rxopen 1) = true) ∧
    (State.reset.Inv ∧ State.reset.keyv = false) ∧ (plainOpen.Inv ∧ plainOpen.keyv = false ∧
      ∃ t, exec (.rxb 0x80) plainOpen = .next t) :=
  ⟨⟨_, rfl⟩, illegal_words.1, ⟨_, rfl⟩, ⟨rfl, rfl⟩, ⟨reset_inv, rfl⟩, ⟨plainOpen_inv, rfl, ⟨_, rfl⟩⟩⟩

/-- The two ends of a small field's range, and of a list of groups. -/
theorem witness_GroupCodecRoundTrips :
    (1 ≤ 2 ∧ 16383 < 2 ^ (7 * 2)) ∧ (1 ≤ 5 ∧ 2 ^ 35 - 1 < 2 ^ (7 * 5)) ∧
    ([0x7F#8, 0x7F#8] ≠ [] ∧ ∀ g ∈ [0x7F#8, 0x7F#8], g < 0x80#8) := by decide

theorem witness_Enc14EncodesOrFaultsRange : (16383#35).toNat ≤ 16383 ∧ 16383 < (16384#35).toNat ∧ (1#5) ≠ 0 := by decide

theorem witness_Enc32sEncodesSignExtension : 0 ≤ (0x7FFFFFFF#32).toInt := by decide

theorem witness_Dec14DecodesOrFaultsBadGroup :
    (0x7F#8 < 0x80#8 ∧ 0x7F#8 < 0x80#8) ∧ 0x80#8 ≤ 0x80#8 := by decide

theorem witness_Dec35DecodesOrFaultsBadGroup :
    (∀ g ∈ [0x7F#8, 0x7F#8, 0x7F#8, 0x7F#8, 0x7F#8], g < 0x80#8) ∧
    ∃ g ∈ [0x00#8, 0x00#8, 0x00#8, 0x00#8, 0x80#8], 0x80#8 ≤ g := by decide

theorem witness_Dec32sReadsLow32BitsSigned :
    (∀ g ∈ [0x78#8, 0x00#8, 0x00#8, 0x00#8, 0x00#8], g < 0x80#8) ∧
    ∃ g ∈ [0x80#8, 0x00#8, 0x00#8, 0x00#8, 0x00#8], 0x80#8 ≤ g := by decide

theorem witness_SignedFieldRoundTrips :
    ∃ t, exec (.dec32s 0x78 0 0 0 0) State.reset = .next t ∧ t.lasterr = 0 ∧ t.nc = false := ⟨_, rfl, by decide, by decide⟩

/-- The same operation in two states that differ; DEC32S, ok. -/
theorem witness_CodecOperationsArePure :
    isCodec (.dec32s 0x10 0 0 0 0) = true ∧ (∃ t, exec (.dec32s 0x10 0 0 0 0) State.reset = .next t ∧ t.lasterr = 0) ∧
    (∃ t, exec (.dec32s 0x10 0 0 0 0) faulted = .next t) ∧ isCodec (.enc14 0) = true ∧
    ∀ g0 g1 g2 g3 g4, Instr.enc14 0 ≠ .dec32s g0 g1 g2 g3 g4 :=
  ⟨rfl, ⟨_, rfl, by decide⟩, ⟨_, rfl⟩, rfl, fun _ _ _ _ _ h => nomatch h⟩

theorem witness_RxopenOpensUnitOrFaults :
    ((0 : BitVec 2) ≠ 3 ∧ ((0 : BitVec 2) = 0 ∨ State.reset.keyv = true)) ∧
    ((2 : BitVec 2) ≠ 3 ∧ ((2 : BitVec 2) = 0 ∨ keyed.keyv = true)) ∧
    (((1 : BitVec 2) = 1 ∨ (1 : BitVec 2) = 2) ∧ State.reset.keyv = false) := by decide

theorem witness_RxbTakesHeaderBytesAsTheyArrive :
    State.reset.rxph = .closed ∧ frameHeader.rxph = .hdr0 ∧ frameHeader.Inv ∧
    { frameHeader with rxph := .hdr1 }.rxph = .hdr1 := ⟨rfl, rfl, frameHeader_inv, rfl⟩

/-- Each class at its boundary byte: 0x80 starts, 0x7F continues or is an orphan. -/
theorem witness_RxbSumsAndClassifiesBodyBytes :
    (plainOpen.rxph = .body ∧ 0x80#8 ≤ 0x80#8) ∧ (frameDone.rxph = .body ∧ 0x7F#8 < 0x80#8 ∧ frameDone.incmd = true) ∧
    (plainOpen.rxph = .body ∧ 0x7F#8 < 0x80#8 ∧ plainOpen.incmd = false) ∧
    (frameDone.Keyed 0x88 ∧ frameDone.rxm ≠ .plain) :=
  ⟨by decide, by decide, by decide, frameDone_keyed, by decide⟩

theorem witness_RxendClosesUnit :
    State.reset.rxph = .closed ∧ (frameHeader.Inv ∧ frameHeader.UnitForm ∧ frameHeader.rxph = .hdr0) ∧
    (plainOpen.rxph = .body ∧ plainOpen.rxm = .plain) ∧
    ({ plainOpen with rxm := .unframed }.rxph = .body ∧ { plainOpen with rxm := .unframed }.rxm = .unframed) :=
  ⟨rfl, ⟨frameHeader_inv, by constructor <;> decide, rfl⟩, ⟨rfl, rfl⟩, ⟨rfl, rfl⟩⟩

theorem witness_RxendGivesVerdictAndReply :
    (frameDone.rxph = .body ∧ frameDone.rxm = .framed ∧ frameDone.rxsum = frameDone.ckexp ∧ frameDone.Keyed 0x88) ∧
    (frameOpen.rxph = .body ∧ frameOpen.rxm = .framed ∧ frameOpen.rxsum ≠ frameOpen.ckexp) :=
  ⟨⟨rfl, rfl, rfl, frameDone_keyed⟩, by decide⟩

/-- One instance of each row of the phase table. -/
theorem witness_ReceivePhaseFollowsTable :
    (∃ t, exec (.rxopen 2) keyed = .next t ∧ t.lasterr = 0) ∧ (∃ t, exec (.rxopen 0) keyed = .next t ∧ t.lasterr = 0) ∧
    (∃ t, exec (.rxopen 1) keyed = .next t ∧ t.lasterr = 0) ∧
    (frameHeader.rxph = .hdr0 ∧ ∃ t, exec (.rxb 0) frameHeader = .next t) ∧
    (∃ t, exec (.rxb 0) { frameHeader with rxph := .hdr1 } = .next t) ∧
    (frameDone.rxph = .body ∧ (∃ t, exec (.rxb 0) frameDone = .next t) ∧ ∃ t, exec .rxend frameDone = .next t) ∧
    (∃ t, exec (.rxb 0) State.reset = .next t ∧ t.lasterr ≠ 0) ∧
    (isReceive .txopen = false ∧ ∃ t, exec .txopen frameDone = .next t) ∧
    ¬ ∃ i, decode 0x020000000000#48 = .ok i :=
  ⟨⟨_, exec_of_case (.rxopenFramed rfl), by decide⟩, ⟨_, rfl, by decide⟩, ⟨_, exec_of_case (.rxopenUnframed rfl), by decide⟩,
   ⟨rfl, ⟨_, rfl⟩⟩, ⟨_, rfl⟩, ⟨rfl, ⟨_, rfl⟩, ⟨_, rfl⟩⟩, ⟨_, rfl, by decide⟩, ⟨rfl, ⟨_, rfl⟩⟩, illegal_words.1⟩

/-- A run that starts, an orphan, a flag kept by another operation, a non-canonical field, a fault, a
SETKEY, a word that spells no operation. -/
theorem witness_FlagsAreSetAndClearedAsTabled :
    (plainOpen.Inv ∧ plainOpen.startsRun (.rxb 0x80) ∧ ∃ t, exec (.rxb 0x80) plainOpen = .next t ∧ t.lasterr = 0) ∧
    (plainOpen.getsOrphan (.rxb 0x7F) ∧ ∃ t, exec (.rxb 0x7F) plainOpen = .next t ∧ t.lasterr = 0) ∧
    (frameDone.Inv ∧ frameDone.incmd = true ∧ ∃ t, exec .txopen frameDone = .next t ∧ t.lasterr = 0) ∧
    (∃ t, exec (.dec32s 0x10 0 0 0 0) State.reset = .next t ∧ t.lasterr = 0) ∧
    (State.reset.Inv ∧ ∃ t, exec .rxend State.reset = .next t ∧ t.lasterr ≠ 0) ∧
    (∃ t, exec (.setkey 0) State.reset = .next t ∧ t.lasterr = 0) ∧
    ((¬ ∃ i, decode 0x020000000000#48 = .ok i) ∧ ∃ t, stepWord 0x020000000000#48 frameDone = .next t) :=
  ⟨⟨plainOpen_inv, ⟨_, rfl, rfl, by decide⟩, ⟨_, rfl, by decide⟩⟩, ⟨⟨_, rfl, rfl, by decide, rfl⟩, ⟨_, rfl, by decide⟩⟩,
   ⟨frameDone_inv, rfl, ⟨_, rfl, by decide⟩⟩, ⟨_, rfl, by decide⟩, ⟨reset_inv, ⟨_, rfl, by decide⟩⟩,
   ⟨_, rfl, by decide⟩, illegal_words.1, ⟨_, rfl⟩⟩

/-- Two Commands: one byte long, and a start byte with the greatest continuation byte. -/
theorem witness_TokenizerCutsAtStartBytes :
    ∀ C ∈ [[0x80#8], [0xFF#8, 0x7F#8]], ∃ p ps, C = p :: ps ∧ 0x80#8 ≤ p ∧ ∀ q ∈ ps, q < 0x80#8 := by
  intro C hC
  rcases List.mem_pair.1 hC with rfl | rfl
  · exact ⟨_, _, rfl, by decide, by decide⟩
  · exact ⟨_, _, rfl, by decide, by decide⟩

theorem witness_ChecksumIsSumModulo65536 : ([0x01#8, 0x02#8] : List Byte).Perm [0x02#8, 0x01#8] := List.Perm.swap _ _ _

theorem witness_StreamingReceiveEqualsPureFunctions :
    ((0 : BitVec 2) = 0 ∧ ([0x05#8] : List Byte) = [0x05#8]) ∧
    ((1 : BitVec 2) = 1 ∧ ∃ k, keyed.Keyed k ∧ [unswizzle 0xD4 k] = [0xD4#8].map (fun b => unswizzle b k)) :=
  ⟨⟨rfl, rfl⟩, rfl, 0x88, keyed_keyed, rfl⟩

theorem witness_FrameVerdictComparesChecksums : keyed.Keyed 0x88 ∧ ([] : List Byte) = [] := ⟨keyed_keyed, rfl⟩

theorem witness_ChecksummedFrameEndsMatch : keyed.Keyed 0x88 := keyed_keyed

/-- A header byte and a body byte of the known vector's frame. -/
theorem witness_OneChangedByteEndsMismatch :
    keyed.Keyed 0x88 ∧ 0 < (packetFrame [0xDA] 0x88).length ∧ (packetFrame [0xDA] 0x88)[0]? ≠ some 0x01#8 ∧
    2 < (packetFrame [0xDA] 0x88).length ∧ (packetFrame [0xDA] 0x88)[2]? ≠ some 0xD5#8 :=
  ⟨keyed_keyed, by decide, by decide, by decide, by decide⟩

theorem witness_TxbReturnsWireByteAndSumsPlain : keyed.keyv = true ∧ State.reset.keyv = false ∧ keyed.Keyed 0x88 :=
  ⟨rfl, rfl, keyed_keyed⟩

theorem witness_TransmitPathBuildsFrame : keyed.Keyed 0x88 ∧ frameDone.Keyed 0x88 := ⟨keyed_keyed, frameDone_keyed⟩

theorem witness_ReceiveAndTransmitPathsAreIndependent :
    (isTransmit .txck = true ∧ ∃ t, exec .txck frameDone = .next t) ∧
    (isReceive .rxend = true ∧ ∃ t, exec .rxend frameDone = .next t) := ⟨⟨rfl, ⟨_, rfl⟩⟩, ⟨rfl, ⟨_, rfl⟩⟩⟩

theorem witness_StepKeepsRegisterInvariants :
    (frameDone.issue 0x320000000000#48).Inv ∧ ∃ t, step (frameDone.issue 0x320000000000#48) = .next t :=
  ⟨issue_inv frameDone_inv _, step_issue_next _ _ .rxend _ (by decide) (exec_of_case (.rxendFramed rfl rfl))⟩

theorem witness_StepKeepsTablesCanonical :
    (keyed.issue 0x1000000000FF#48).TableForm ∧ ∃ t, step (keyed.issue 0x1000000000FF#48) = .next t :=
  ⟨issue_tableForm keyed_tableForm _, step_issue_next _ _ (.setkey 0xFF) _ (by decide) (exec_setkey _ _)⟩

theorem witness_StepKeepsFaultRegistersLegal :
    (faulted.issue 0x320000000000#48).FaultForm ∧ ∃ t, step (faulted.issue 0x320000000000#48) = .next t :=
  ⟨by constructor <;> decide, ⟨_, rfl⟩⟩

theorem witness_StepKeepsVerdictTrueOfSums :
    (frameDone.issue 0x320000000000#48).UnitForm ∧
    { State.reset with rxm := .framed, verdict := .mismatch, ckexp := 1 }.UnitForm ∧
    ∃ t, step (frameDone.issue 0x320000000000#48) = .next t :=
  ⟨by constructor <;> decide, by constructor <;> decide,
   step_issue_next _ _ .rxend _ (by decide) (exec_of_case (.rxendFramed rfl rfl))⟩

theorem witness_StepRunsIssuedWord :
    { State.reset with input := [.word 0x010000000000#48] }.input = .word 0x010000000000#48 :: [] ∧
    decode 0x010000000000#48 = .ok .errack ∧
    { State.reset with input := [.word 0x020000000000#48] }.input = .word 0x020000000000#48 :: [] ∧
    decode 0x020000000000#48 = .error (.unassignedOp 0x02) ∧
    { State.reset with input := [.reset] }.input = .reset :: [] := by decide

theorem witness_HostReadsReturnRegistersAndChangeNone :
    State.reset.input = [] ∧ { keyed with input := [.readReg 3] }.input = .readReg 3 :: [] ∧ keyed.keyv = true ∧
    { keyed with input := [.readReg 11] }.input = .readReg 11 :: [] ∧ 11 ≤ (11 : BitVec 4).toNat :=
  ⟨rfl, rfl, rfl, rfl, by decide⟩

/-- Operations that write each group of registers, in states where they change them. -/
theorem witness_RegistersChangeOnlyByTheirWriters :
    (∃ t, exec (.setkey 0x88) State.reset = .next t ∧ t.magic ≠ State.reset.magic) ∧
    (∃ t, exec (.rxb 0x01) frameHeader = .next t ∧ t.ckexp ≠ frameHeader.ckexp) ∧
    (∃ t, exec (.rxb 0x80) plainOpen = .next t ∧ t.rxsum ≠ plainOpen.rxsum ∧ t.clen ≠ plainOpen.clen ∧
      t.res ≠ plainOpen.res) ∧
    (∃ t, exec .rxend frameDone = .next t ∧ t.prevlen ≠ frameDone.prevlen ∧ t.verdict ≠ frameDone.verdict) ∧
    (∃ t, exec .errack faulted = .next t ∧ t.err ≠ faulted.err) ∧
    (∃ t, exec .txopen { State.reset with txsum := 1 } = .next t ∧ t.txsum ≠ 1) ∧
    (∃ t, exec (.rxopen 2) keyed = .next t ∧ t.rxm ≠ keyed.rxm) :=
  ⟨⟨_, rfl, by decide⟩, ⟨_, rfl, by decide⟩, ⟨_, rfl, by decide, by decide, by decide⟩,
   ⟨_, exec_of_case (.rxendFramed rfl rfl), by decide, by decide⟩, ⟨_, rfl, by decide⟩, ⟨_, rfl, by decide⟩,
   ⟨_, exec_of_case (.rxopenFramed rfl), by decide⟩⟩

end Sys2Proof.Machine
end

/-! SUPPORT. How a step can end: every operation, word and host action has a next state, and an operation ends ok or as a fault
leaves it (`00_scope.md` rule R12, `70_reset_and_hazards.md` rule R184). -/

namespace Sys2Proof.Machine

/-- What taking a fault leaves is what rule R145 spells out for its code. -/
theorem State.takeFault_eq_faultedWith (s : State) (c : FaultCode) : s.takeFault c = s.faultedWith c.code := rfl

/-- RXEND answers a next state in every phase and mode. -/
theorem exec_rxend_next (s : State) : ∃ t, exec .rxend s = .next t := by
  cases hp : s.rxph with
  | closed => exact ⟨_, exec_rxend_closed hp⟩
  | hdr0 => exact ⟨_, exec_rxend_header (.inl hp)⟩
  | hdr1 => exact ⟨_, exec_rxend_header (.inr hp)⟩
  | body =>
    by_cases hm : s.rxm = .framed
    · exact ⟨_, exec_rxend_framed hp hm⟩
    · exact ⟨_, exec_rxend_unframed hp hm⟩

/-- RXB answers a next state in every phase. -/
theorem exec_rxb_next (b : Byte) (s : State) : ∃ t, exec (.rxb b) s = .next t := by
  cases hp : s.rxph with
  | closed => exact ⟨_, exec_rxb_closed b hp⟩
  | hdr0 => exact ⟨_, exec_rxb_hdr0 b hp⟩
  | hdr1 => exact ⟨_, exec_rxb_hdr1 b hp⟩
  | body => exact ⟨_, exec_rxb_body b hp⟩

/-- RXOPEN answers a next state for every mode, the reserved one included. -/
theorem exec_rxopen_next (m : BitVec 2) (s : State) : ∃ t, exec (.rxopen m) s = .next t := by
  rcases RxMode.ofBits_cases m with ⟨rfl, -⟩ | ⟨rfl, -⟩ | ⟨rfl, -⟩ | ⟨rfl, -⟩
  · exact ⟨_, exec_rxopen_plain s⟩
  · exact ⟨_, exec_rxopen_unframed s⟩
  · exact ⟨_, exec_rxopen_framed s⟩
  · exact ⟨_, exec_rxopen_reserved s⟩

/-- No operation stops the machine or is refused. -/
theorem exec_next (i : Instr) (s : State) : ∃ t, exec i s = .next t := by
  cases i with
  | nop => exact ⟨_, exec_nop s⟩
  | errack => exact ⟨_, exec_errack s⟩
  | setkey k => exact ⟨_, exec_setkey k s⟩
  | swz b => exact ⟨_, exec_swz b s⟩
  | uswz c => exact ⟨_, exec_uswz c s⟩
  | enc14 v => exact ⟨_, exec_enc14 v s⟩
  | enc35 v => exact ⟨_, exec_enc35 v s⟩
  | enc32s x => exact ⟨_, exec_enc32s x s⟩
  | dec14 g0 g1 => exact ⟨_, exec_dec14 g0 g1 s⟩
  | dec35 g0 g1 g2 g3 g4 => exact ⟨_, exec_dec35 g0 g1 g2 g3 g4 s⟩
  | dec32s g0 g1 g2 g3 g4 => exact ⟨_, exec_dec32s g0 g1 g2 g3 g4 s⟩
  | rxopen m => exact exec_rxopen_next m s
  | rxb b => exact exec_rxb_next b s
  | rxend => exact exec_rxend_next s
  | txopen => exact ⟨_, exec_txopen s⟩
  | txb p => exact ⟨_, exec_txb p s⟩
  | txck => exact ⟨_, exec_txck s⟩

/-- An operation that answers a next state ends ok (`LASTERR` 0), or leaves exactly what taking one fault leaves. -/
theorem ExecCase.ok_or_takeFault {i : Instr} {s t : State} (h : ExecCase s i t) :
    t.lasterr = 0 ∨ ∃ c, t = s.takeFault c := by
  cases h with
  | rxopenReserved => exact .inr ⟨.illegalOp, rfl⟩
  | swzNoKey | uswzNoKey | rxopenUnframedNoKey | rxopenFramedNoKey | txbNoKey => exact .inr ⟨.noKey, rfl⟩
  | rxbClosed | rxendClosed => exact .inr ⟨.notOpen, rfl⟩
  | enc14Range => exact .inr ⟨.range, rfl⟩
  | dec14Bad | dec35Bad | dec32sBad => exact .inr ⟨.badGroup, rfl⟩
  | _ => exact .inl rfl

/-- A word answers a next state whether or not it spells an operation. -/
theorem stepWord_next (w : OpWord) (s : State) : ∃ t, stepWord w s = .next t := by
  cases h : decode w with
  | ok i => rw [stepWord_ok s h]; exact exec_next i s
  | error r => exact ⟨_, stepWord_error s h⟩

/-- Every step answers a next state, whatever the host does. -/
theorem step_next (s : State) : ∃ t, step s = .next t := by
  cases h : s.input with
  | nil => exact ⟨_, step_idle h⟩
  | cons a rest =>
    cases a with
    | word w => rw [step_word h]; exact stepWord_next w s.taken
    | readReg n => exact ⟨_, step_readReg h⟩
    | reset => exact ⟨_, step_reset h⟩

end Sys2Proof.Machine

/-! SUPPORT. Unswizzling undoes swizzling, so swizzling under one key loses nothing (`41_swizzle.md` rules R87, R88), and the two
tokens of `00_scope.md` rule R8 meet its constraint. -/

namespace Sys2Proof.Machine

/-- Exchanging bits 0 and 7 twice changes nothing. -/
@[simp] theorem swap07_swap07 (b : Byte) : swap07 (swap07 b) = b := by
  revert b; decide

/-- Each of the three steps of `U` undoes one of `S`, last step first. -/
@[simp] theorem unswizzle_swizzle (b m : Byte) : unswizzle (swizzle b m) m = b := by
  simp [unswizzle, swizzle]

/-- Under one key, distinct plain bytes have distinct wire bytes. -/
theorem swizzle_injective (m : Byte) : Function.Injective (fun b => swizzle b m) :=
  Function.LeftInverse.injective (g := fun c => unswizzle c m) fun b => unswizzle_swizzle b m

/-- A byte whose bit 7 is 1 is a start byte. -/
theorem hex80_le_one_append (v : BitVec 7) : 0x80#8 ≤ (1#1 ++ v : Byte) := by
  rw [BitVec.le_def, toNat_append_add]
  exact Nat.le_add_right _ _

end Sys2Proof.Machine

namespace Sys2Proof.Config

/-- The gap between the two tokens' low bits is 1 to 127, so adding it mod 128 moves them apart. -/
theorem ackToken_ne_nakToken : ackToken ≠ nakToken := by
  intro h
  have hsum := congrArg BitVec.toNat h
  have hgap := nakGap.isLt
  have hlow := ackLow.isLt
  simp only [ackToken, nakToken, toNat_append_add, BitVec.toNat_add, BitVec.toNat_ofNat] at hsum
  omega

end Sys2Proof.Config

/-! PROOF. The two statements that rest on `00_scope.md` rules R8 and R12. -/

namespace Sys2Proof.Machine

/-- Settles O8: an operation's next state is one of its cases, each ok or a fault; a step hands a word to its operation. -/
theorem everyStepEndsOkOrFault : Obligations.EveryStepEndsOkOrFault := by
  refine ⟨fun i s => ?_, step_next⟩
  obtain ⟨t, ht⟩ := exec_next i s
  refine ⟨t, ht, ?_⟩
  rcases (exec_case ht).ok_or_takeFault with hok | ⟨c, rfl⟩
  · exact .inl hok
  · exact .inr ⟨c.code_ne_zero, s.takeFault_eq_faultedWith c⟩

/-- Settles O36: distinct tokens keep distinct wire bytes because a key's swizzle is injective. -/
theorem ackAndNakRepliesDiffer : Obligations.AckAndNakRepliesDiffer :=
  ⟨hex80_le_one_append _, hex80_le_one_append _, fun m => (swizzle_injective m).ne Config.ackToken_ne_nakToken⟩

end Sys2Proof.Machine

/-! PROOF. What every step keeps, packaged once: a property of the state that the operations, an illegal word, a register read and
a reset keep is kept by every step (`10_state.md` rule R14). -/

namespace Sys2Proof.Machine

/-- A word that spells no operation leaves what the fault `IllegalOp` leaves. -/
theorem eq_takeFault_of_illegal {w : OpWord} {s t : State} (hw : ¬ ∃ i, decode w = .ok i) (h : stepWord w s = .next t) :
    t = s.takeFault .illegalOp := by
  obtain ⟨r, hr⟩ := decode_error_of_not_ok hw
  exact (Host.Outcome.next.inj ((stepWord_error s hr).symm.trans h)).symm

/-- What the operations, an illegal word, taking an action, a register read and a reset keep, a step keeps. -/
theorem step_keeps {P : State → Prop} (htaken : ∀ s, P s → P s.taken) (hfault : ∀ s, P s → P (s.takeFault .illegalOp))
    (hread : ∀ s n, P s → P (s.hostRead n)) (hreset : ∀ s : State, P s.hostReset)
    (hexec : ∀ i s t, P s → ExecCase s i t → P t) (s t : State) (hs : P s) (h : step s = .next t) : P t := by
  rcases step_cases h with ⟨-, rfl⟩ | ⟨w, rest, -, hw⟩ | ⟨n, rest, -, rfl⟩ | ⟨rest, -, rfl⟩
  · exact hs
  · by_cases hd : ∃ i, decode w = .ok i
    · obtain ⟨i, hi⟩ := hd
      exact hexec i s.taken t (htaken s hs) (exec_case ((stepWord_ok _ hi).symm.trans hw))
    · rw [eq_takeFault_of_illegal hd hw]
      exact hfault _ (htaken s hs)
  · exact hread _ n (htaken s hs)
  · exact hreset _

/-! ## The eight invariants under each named operation (`10_state.md` rule R38) -/

/-- In a header phase no run is open and no flag of the receive path stands. -/
theorem State.Inv.header_clear {s : State} (h : s.Inv) (hp : s.rxph = .hdr0 ∨ s.rxph = .hdr1) :
    s.clen = 0 ∧ s.incmd = false ∧ s.soc = false ∧ s.orph = false ∧ s.orphs = false := by
  obtain ⟨-, -, hi, hos⟩ := h.header hp
  refine ⟨?_, hi, ?_, ?_, hos⟩
  · by_contra hc
    exact absurd (h.runOpen.2 hc) (by simp [hi])
  · by_contra hc
    exact absurd (h.start (by simpa using hc)).1 (by simp [hi])
  · by_contra hc
    exact absurd (h.orphan (by simpa using hc)).2 (by simp [hos])

/-- With no key loaded, an open body is PLAIN. -/
theorem State.Inv.plain_of_unkeyed {s : State} (h : s.Inv) (hk : s.keyv = false) (hp : s.rxph = .body) : s.rxm = .plain := by
  by_contra hm
  exact absurd ((h.opened (by simp [hp])).2 hm) (by simp [hk])

/-- A saturating counter that has counted is not 0. -/
theorem sat16_succ_ne_zero (n : Nat) : sat16 (n + 1) ≠ 0 := by
  intro h
  have h := congrArg BitVec.toNat h
  unfold sat16 at h
  split at h
  · simp only [BitVec.toNat_ofNat, BitVec.ofNat_eq_ofNat] at h; omega
  · exact absurd h (by decide)

section
variable {s : State} (h : s.Inv)
include h

theorem State.Inv.taken : s.taken.Inv := { h with }

theorem State.Inv.hostRead (n : BitVec 4) : (s.hostRead n).Inv := { h with }

theorem State.Inv.endOk : s.endOk.Inv := { h with }

theorem State.Inv.ackFault : s.ackFault.Inv := { h with }

theorem State.Inv.takeFault (c : FaultCode) : (s.takeFault c).Inv := { h with }

theorem State.Inv.setNc (b : Bool) : (s.setNc b).Inv := { h with }

theorem State.Inv.clearTx : s.clearTx.Inv := { h with }

theorem State.Inv.sumTx (p : Byte) : (s.sumTx p).Inv := { h with }

/-- A result keeps the invariants when its length is one that rule R15 names. -/
theorem State.Inv.result (r : Word40) {n : BitVec 3} (hn : n = 0 ∨ n = 1 ∨ n = 2 ∨ n = 5) : (s.result r n).Inv :=
  { h with length := hn }

theorem State.Inv.loadKey (k : Byte) : (s.loadKey k).Inv := { h with
  tables := fun _ => (s.loadKey_keyed k).tables
  opened := fun hp => ⟨(h.opened hp).1, fun _ => rfl⟩ }

theorem State.Inv.openUnit {m : RxMode} (hm : m = .plain ∨ s.keyv = true) : (s.openUnit m).Inv := { h with
  runOpen := by simp
  closed := fun _ => ⟨rfl, rfl, rfl, rfl⟩
  header := by cases m <;> simp
  opened := fun _ => ⟨rfl, fun hne => hm.resolve_left hne⟩
  start := by simp
  orphan := by simp
  verdicts := by simp }

theorem State.Inv.headerHigh (b : Byte) (hp : s.rxph = .hdr0) : (s.headerHigh b).Inv := { h with
  closed := by simp
  header := fun _ => h.header (.inl hp)
  opened := fun _ => h.opened (by simp [hp]) }

theorem State.Inv.headerLow (b : Byte) (hp : s.rxph = .hdr1) : (s.headerLow b).Inv := { h with
  closed := by simp
  header := by simp
  opened := fun _ => h.opened (by simp [hp]) }

theorem State.Inv.sumBody (p : Byte) (hp : s.rxph = .body) : (s.sumBody p).Inv := { h with
  header := by simp [hp] }

theorem State.Inv.startRun (hp : s.rxph = .body) : s.startRun.Inv := { h with
  runOpen := by simp
  closed := by simp [hp]
  header := by simp [hp]
  start := fun _ => ⟨rfl, rfl, rfl⟩
  orphan := by simp }

theorem State.Inv.contRun (hp : s.rxph = .body) (hi : s.incmd = true) : s.contRun.Inv := { h with
  runOpen := iff_of_true hi (sat16_succ_ne_zero _)
  closed := by simp [hp]
  header := by simp [hp]
  start := by simp
  orphan := by simp }

theorem State.Inv.orphanByte (hp : s.rxph = .body) (hi : s.incmd = false) : s.orphanByte.Inv := { h with
  closed := by simp [hp]
  header := by simp [hp]
  start := by simp
  orphan := fun _ => ⟨hi, rfl⟩ }

theorem State.Inv.endShort (hp : s.rxph = .hdr0 ∨ s.rxph = .hdr1) : s.endShort.Inv := { h with
  closed := fun _ => by
    obtain ⟨hc, hi, hs, ho, -⟩ := h.header_clear hp
    exact ⟨hi, hc, hs, ho⟩
  header := by simp
  opened := by simp
  verdicts := fun _ => (h.header hp).1 }

theorem State.Inv.closeUnit {v : Verdict} (hv : v ≠ .noVerdict → s.rxm = .framed) : (s.closeUnit v).Inv := { h with
  runOpen := by simp
  closed := fun _ => ⟨rfl, rfl, rfl, rfl⟩
  header := by simp
  opened := by simp
  start := by simp
  orphan := by simp
  verdicts := hv }

end

/-- Reset establishes the invariants. -/
theorem State.Inv.hostReset (s : State) : s.hostReset.Inv := { reset_inv with }

/-- Every operation keeps the eight invariants, case by case. -/
theorem ExecCase.keeps_inv {i : Instr} {s t : State} (h : s.Inv) (hc : ExecCase s i t) : t.Inv := by
  cases hc with
  | nop => exact h.endOk
  | errack => exact h.ackFault
  | setkey k => exact (h.loadKey k).result 0 (by decide)
  | dec32s => exact (h.setNc _).result _ (by decide)
  | rxopenPlain => exact (h.openUnit (.inl rfl)).result 0 (by decide)
  | rxopenUnframed hk | rxopenFramed hk => exact (h.openUnit (.inr hk)).result 0 (by decide)
  | rxbHdr0 b hp => exact (h.headerHigh b hp).result 0 (by decide)
  | rxbHdr1 b hp => exact (h.headerLow b hp).result 0 (by decide)
  | rxbStart b hp => exact ((h.sumBody _ hp).startRun hp).result _ (by decide)
  | rxbCont b hp _ hi => exact ((h.sumBody _ hp).contRun hp hi).result _ (by decide)
  | rxbOrphan b hp _ hi => exact ((h.sumBody _ hp).orphanByte hp hi).result _ (by decide)
  | rxendShort hp => exact (h.endShort hp).result 0 (by decide)
  | rxendUnframed => exact (h.closeUnit (absurd rfl)).result 0 (by decide)
  | rxendFramed _ hm => exact (h.closeUnit fun _ => hm).result _ (by decide)
  | txopen => exact h.clearTx.result 0 (by decide)
  | txb p => exact (h.sumTx p).result _ (by decide)
  | swz | uswz | enc14 | enc35 | enc32s | dec14 | dec35 | txck => exact h.result _ (by decide)
  | _ => exact h.takeFault _

/-- Settles O52: the invariants are kept by each operation, by reads and faults, and reset establishes them. -/
theorem stepKeepsRegisterInvariants : Obligations.StepKeepsRegisterInvariants :=
  step_keeps (P := State.Inv) (fun _ h => h.taken) (fun _ h => h.takeFault _) (fun _ n h => h.hostRead n) State.Inv.hostReset
    (fun _ _ _ h hc => hc.keeps_inv h)

end Sys2Proof.Machine

/-! PROOF. What stands of a unit after each named operation: a verdict true of the two sums until the next RXOPEN, and no length
reported while a header is read (`10_state.md` rules R26, R27, R29; `43_rx_framer.md` rules R126, R128). -/

namespace Sys2Proof.Machine

section
variable {s : State} (h : s.UnitForm)
include h

/-- While a unit is open no verdict stands. -/
theorem State.UnitForm.noVerdict (hp : s.rxph ≠ .closed) : s.verdict = .noVerdict := by
  by_contra hv
  exact hp (h.closed hv)

theorem State.UnitForm.taken : s.taken.UnitForm := { h with }

theorem State.UnitForm.hostRead (n : BitVec 4) : (s.hostRead n).UnitForm := { h with }

theorem State.UnitForm.endOk : s.endOk.UnitForm := { h with }

theorem State.UnitForm.ackFault : s.ackFault.UnitForm := { h with }

theorem State.UnitForm.takeFault (c : FaultCode) : (s.takeFault c).UnitForm := { h with }

theorem State.UnitForm.loadKey (k : Byte) : (s.loadKey k).UnitForm := { h with }

theorem State.UnitForm.setNc (b : Bool) : (s.setNc b).UnitForm := { h with }

theorem State.UnitForm.clearTx : s.clearTx.UnitForm := { h with }

theorem State.UnitForm.sumTx (p : Byte) : (s.sumTx p).UnitForm := { h with }

theorem State.UnitForm.result (r : Word40) (n : BitVec 3) : (s.result r n).UnitForm := { h with }

end

/-- A short unit's verdict compares nothing. -/
theorem State.UnitForm.endShort (s : State) : s.endShort.UnitForm where
  closed := by simp
  matched := by simp
  mismatch := by simp
  header := by simp

/-- A state with no verdict and no length reported meets the form, whatever its sums are. -/
theorem State.UnitForm.of_noVerdict {s : State} (hv : s.verdict = .noVerdict)
    (hh : s.rxph = .hdr0 ∨ s.rxph = .hdr1 → s.prevlen = 0) : s.UnitForm where
  closed := by simp [hv]
  matched := by simp [hv]
  mismatch := by simp [hv]
  header := hh

theorem State.UnitForm.openUnit (s : State) (m : RxMode) : (s.openUnit m).UnitForm := .of_noVerdict rfl fun _ => rfl

theorem State.UnitForm.closeUnit_noVerdict (s : State) : (s.closeUnit .noVerdict).UnitForm := .of_noVerdict rfl (by simp)

/-- The verdict on a frame records the comparison of its sums (rule R128). -/
theorem State.UnitForm.closeUnit_frameVerdict (s : State) : (s.closeUnit s.frameVerdict).UnitForm := by
  by_cases hs : s.rxsum = s.ckexp <;> constructor <;> simp [State.frameVerdict, hs]

theorem State.UnitForm.hostReset (s : State) : s.hostReset.UnitForm := .of_noVerdict rfl fun _ => rfl

/-- Every operation keeps a standing verdict true: while a unit is open there is none, and RXEND's compares the sums it leaves. -/
theorem ExecCase.keeps_unitForm {i : Instr} {s t : State} (h : s.UnitForm) (hc : ExecCase s i t) : t.UnitForm := by
  cases hc with
  | nop => exact h.endOk
  | errack => exact h.ackFault
  | setkey k => exact (h.loadKey k).result _ _
  | dec32s => exact (h.setNc _).result _ _
  | rxopenPlain | rxopenUnframed | rxopenFramed => exact (State.UnitForm.openUnit s _).result _ _
  | rxbHdr0 b hp => exact .of_noVerdict (h.noVerdict (by simp [hp])) fun _ => h.header (.inl hp)
  | rxbHdr1 b hp => exact .of_noVerdict (h.noVerdict (by simp [hp])) (by simp)
  | rxbStart b hp | rxbCont b hp | rxbOrphan b hp => exact .of_noVerdict (h.noVerdict (by simp [hp])) (by simp [hp])
  | rxendShort => exact (State.UnitForm.endShort s).result _ _
  | rxendUnframed => exact (State.UnitForm.closeUnit_noVerdict s).result _ _
  | rxendFramed => exact (State.UnitForm.closeUnit_frameVerdict s).result _ _
  | txopen => exact h.clearTx.result _ _
  | txb p => exact (h.sumTx p).result _ _
  | swz | uswz | enc14 | enc35 | enc32s | dec14 | dec35 | txck => exact h.result _ _
  | _ => exact h.takeFault _

/-- Settles O55: a verdict is written only by RXEND, which compares the sums, and every write to a sum finds or leaves none. -/
theorem stepKeepsVerdictTrueOfSums : Obligations.StepKeepsVerdictTrueOfSums :=
  step_keeps (P := State.UnitForm) (fun _ h => h.taken) (fun _ h => h.takeFault _) (fun _ n h => h.hostRead n)
    State.UnitForm.hostReset (fun _ _ _ h hc => hc.keeps_unitForm h)

end Sys2Proof.Machine

/-! PROOF. What a fault and an ok step leave in `ERR`, and which operations move each register (`10_state.md` rules R31, R32,
R34). -/

namespace Sys2Proof.Machine

/-- A plain byte of 0x80 or more is a start byte. -/
theorem isStart_iff (p : Byte) : isStart p = true ↔ 0x80#8 ≤ p := by simp [isStart]

/-- A step that took a fault did not end ok. -/
theorem State.takeFault_lasterr_ne_zero (s : State) (c : FaultCode) : (s.takeFault c).lasterr ≠ 0 := c.code_ne_zero

section
variable {i : Instr} {s t : State} (h : ExecCase s i t)
include h

/-- A step whose `LASTERR` is not 0 took a fault and did nothing else. -/
theorem ExecCase.eq_takeFault (hl : t.lasterr ≠ 0) : ∃ c, t = s.takeFault c :=
  h.ok_or_takeFault.resolve_left hl

/-- An ok step leaves `ERR` alone, but for ERRACK. -/
theorem ExecCase.err_of_ok (hi : i ≠ .errack) (hok : t.lasterr = 0) : t.err = s.err := by
  cases h with
  | errack => exact absurd rfl hi
  | swzNoKey | uswzNoKey | rxopenUnframedNoKey | rxopenFramedNoKey | txbNoKey | rxopenReserved | rxbClosed | rxendClosed
  | enc14Range | dec14Bad | dec35Bad | dec32sBad => exact absurd hok (s.takeFault_lasterr_ne_zero _)
  | _ => rfl

/-- `ERR` after an operation: cleared by ERRACK, else written by the step's outcome only while it is 0 (rule R32). -/
theorem ExecCase.err_eq : t.err = if i = .errack then 0 else if s.err = 0 then t.lasterr else s.err := by
  by_cases hi : i = .errack
  · subst hi; cases h; rfl
  · rcases h.ok_or_takeFault with hok | ⟨c, rfl⟩
    · rw [if_neg hi, h.err_of_ok hi hok, hok]
      split; exacts [‹_›, rfl]
    · rw [if_neg hi]; rfl

/-- Only SETKEY writes `MAGIC`, `KEYV` and the tables (rules R17 to R20). -/
theorem ExecCase.keeps_key (hi : ∀ k, i ≠ .setkey k) :
    t.magic = s.magic ∧ t.keyv = s.keyv ∧ t.fwd = s.fwd ∧ t.inv = s.inv := by
  cases h with
  | setkey k => exact absurd rfl (hi k)
  | _ => exact ⟨rfl, rfl, rfl, rfl⟩

/-- No operation touches the host's side: the actions to come, the latest answer, the draws. -/
theorem ExecCase.keeps_host : t.input = s.input ∧ t.readOut = s.readOut ∧ t.draws = s.draws := by
  cases h <;> exact ⟨rfl, rfl, rfl⟩

/-- `RES` and `RLEN` are written by an ok step that has a result (rule R15). -/
theorem ExecCase.res_writer (hne : t.res ≠ s.res ∨ t.rlen ≠ s.rlen) : t.lasterr = 0 ∧ i ≠ .nop ∧ i ≠ .errack := by
  refine ⟨?_, ?_, ?_⟩
  · rcases h.ok_or_takeFault with hok | ⟨c, rfl⟩
    · exact hok
    · simp at hne
  · rintro rfl; cases h; simp at hne
  · rintro rfl; cases h; simp at hne

theorem ExecCase.magic_writer (hne : t.magic ≠ s.magic) : ∃ k, i = .setkey k := by
  by_contra hi
  exact hne (h.keeps_key fun k hk => hi ⟨k, hk⟩).1

theorem ExecCase.rxm_writer (hne : t.rxm ≠ s.rxm) : ∃ m, i = .rxopen m := by
  cases h with
  | rxopenPlain | rxopenUnframed | rxopenFramed => exact ⟨_, rfl⟩
  | _ => exact (hne rfl).elim

theorem ExecCase.ckexp_writer (hne : t.ckexp ≠ s.ckexp) :
    (∃ m, i = .rxopen m) ∨ ∃ b, i = .rxb b ∧ (s.rxph = .hdr0 ∨ s.rxph = .hdr1) := by
  cases h with
  | rxopenPlain | rxopenUnframed | rxopenFramed => exact .inl ⟨_, rfl⟩
  | rxbHdr0 b hp => exact .inr ⟨b, rfl, .inl hp⟩
  | rxbHdr1 b hp => exact .inr ⟨b, rfl, .inr hp⟩
  | _ => exact (hne rfl).elim

theorem ExecCase.rxsum_writer (hne : t.rxsum ≠ s.rxsum) :
    (∃ m, i = .rxopen m) ∨ ∃ b, i = .rxb b ∧ s.rxph = .body := by
  cases h with
  | rxopenPlain | rxopenUnframed | rxopenFramed => exact .inl ⟨_, rfl⟩
  | rxbStart b hp | rxbCont b hp | rxbOrphan b hp => exact .inr ⟨b, rfl, hp⟩
  | _ => exact (hne rfl).elim

theorem ExecCase.txsum_writer (hne : t.txsum ≠ s.txsum) : i = .txopen ∨ ∃ p, i = .txb p := by
  cases h with
  | txopen => exact .inl rfl
  | txb p => exact .inr ⟨p, rfl⟩
  | _ => exact (hne rfl).elim

theorem ExecCase.clen_writer (hne : t.clen ≠ s.clen) :
    (∃ m, i = .rxopen m) ∨ (∃ b, i = .rxb b ∧ s.rxph = .body) ∨ i = .rxend := by
  cases h with
  | rxopenPlain | rxopenUnframed | rxopenFramed => exact .inl ⟨_, rfl⟩
  | rxbStart b hp | rxbCont b hp => exact .inr (.inl ⟨b, rfl, hp⟩)
  | rxendUnframed | rxendFramed => exact .inr (.inr rfl)
  | _ => exact (hne rfl).elim

theorem ExecCase.prevlen_writer (hne : t.prevlen ≠ s.prevlen) :
    (∃ m, i = .rxopen m) ∨ s.startsRun i ∨ i = .rxend := by
  cases h with
  | rxopenPlain | rxopenUnframed | rxopenFramed => exact .inl ⟨_, rfl⟩
  | rxbStart b hp hs => exact .inr (.inl ⟨b, rfl, hp, (isStart_iff _).1 hs⟩)
  | rxendUnframed | rxendFramed => exact .inr (.inr rfl)
  | _ => exact (hne rfl).elim

theorem ExecCase.verdict_writer (hne : t.verdict ≠ s.verdict) : (∃ m, i = .rxopen m) ∨ i = .rxend := by
  cases h with
  | rxopenPlain | rxopenUnframed | rxopenFramed => exact .inl ⟨_, rfl⟩
  | rxendShort | rxendUnframed | rxendFramed => exact .inr rfl
  | _ => exact (hne rfl).elim

/-- `ERR` is written by a fault or by ERRACK (rule R32). -/
theorem ExecCase.err_writer (hne : t.err ≠ s.err) : t.lasterr ≠ 0 ∨ i = .errack := by
  by_contra hc
  rw [not_or, not_not] at hc
  exact hne (h.err_of_ok hc.2 hc.1)

end

/-- Settles O59: register by register, the operations that write it. -/
theorem registersChangeOnlyByTheirWriters : Obligations.RegistersChangeOnlyByTheirWriters := by
  intro i s t he
  have h := exec_case he
  exact ⟨h.res_writer, h.magic_writer, h.rxm_writer, h.ckexp_writer, h.rxsum_writer, h.txsum_writer, h.clen_writer,
    h.prevlen_writer, h.verdict_writer, h.err_writer, h.keeps_host⟩

/-- Settles O20: the tables' reads rest on the table, and on the draws where an entry is not listed; neither moves. -/
theorem onlySetkeyStoresToTables : Obligations.OnlySetkeyStoresToTables := by
  intro i s t he hi
  obtain ⟨hm, hk, hf, hv⟩ := (exec_case he).keeps_key hi
  obtain ⟨-, -, hd⟩ := (exec_case he).keeps_host
  refine ⟨fun a => by rw [hf, hv]; exact ⟨rfl, rfl⟩, fun b => ?_, hm, hk⟩
  simp only [State.fwdAt, State.invAt, hf, hv, hd, and_self]

/-! ## The fault registers' form (rules R31, R32, R144) -/

theorem reset_faultForm : State.reset.FaultForm := by constructor <;> decide

/-- Taking a fault keeps the fault registers legal: its code is one of the five and is not 0. -/
theorem State.FaultForm.takeFault {s : State} (h : s.FaultForm) (c : FaultCode) : (s.takeFault c).FaultForm where
  lasterr := c.code_le
  err := by rw [State.takeFault_err]; split; exacts [c.code_le, h.err]
  first := fun _ => by rw [State.takeFault_err]; split; exacts [c.code_ne_zero, ‹_›]

/-- Every operation keeps the fault registers legal: it faults, or leaves `LASTERR` 0 and `ERR` as it was or 0. -/
theorem ExecCase.keeps_faultForm {i : Instr} {s t : State} (h : s.FaultForm) (hc : ExecCase s i t) : t.FaultForm := by
  rcases hc.ok_or_takeFault with hok | ⟨c, rfl⟩
  · have herr : t.err ≤ 5#4 := by
      rw [hc.err_eq, hok]
      split_ifs
      exacts [by decide, by decide, h.err]
    exact ⟨hok ▸ by decide, herr, absurd hok⟩
  · exact h.takeFault c

/-- Settles O54: every way an operation ends keeps the form, and the host's reads leave the two registers alone. -/
theorem stepKeepsFaultRegistersLegal : Obligations.StepKeepsFaultRegistersLegal :=
  step_keeps (P := State.FaultForm) (fun _ h => { h with }) (fun _ h => h.takeFault _) (fun _ _ h => { h with })
    (fun _ => { reset_faultForm with }) (fun _ _ _ h hc => hc.keeps_faultForm h)

end Sys2Proof.Machine

/-! PROOF. Which registers an operation looks at: none looks at `ERR`, and with no key loaded none looks at `MAGIC` or the tables
(`10_state.md` rules R18, R32). -/

namespace Sys2Proof.Machine

/-- A checked operation takes related states to related states when its fault and its effect do. -/
theorem State.check_related {R : State → State → Prop} {s s' t t' u : State} {bad : Bool} {c : FaultCode}
    (hf : R (s.takeFault c) (s'.takeFault c)) (ht : bad = false → R t t') (h : s.check bad c t = .next u) :
    ∃ u', s'.check bad c t' = .next u' ∧ R u u' := by
  rcases State.check_cases h with ⟨rfl, rfl⟩ | ⟨rfl, rfl⟩
  · exact ⟨_, rfl, hf⟩
  · exact ⟨_, rfl, ht rfl⟩

/-! ## `ERR` -/

/-- `u` is `t` but for `ERR`. -/
def State.EqButErr (t u : State) : Prop := ∃ e, u = { t with err := e }

/-- No operation looks at `ERR`: whatever it holds, the next state is the same but for `ERR`. -/
theorem exec_ignores_err {i : Instr} {s t : State} (h : exec i s = .next t) (e : BitVec 4) :
    ∃ u, exec i { s with err := e } = .next u ∧ t.EqButErr u := by
  cases i with
  | nop | errack | setkey | enc35 | enc32s | txopen | txck => cases h; exact ⟨_, rfl, _, rfl⟩
  | swz | uswz | txb | enc14 | dec14 | dec35 | dec32s => exact State.check_related ⟨_, rfl⟩ (fun _ => ⟨_, rfl⟩) h
  | rxopen m =>
    rcases RxMode.ofBits_cases m with ⟨rfl, -⟩ | ⟨rfl, -⟩ | ⟨rfl, -⟩ | ⟨rfl, -⟩
    · cases h; exact ⟨_, rfl, _, rfl⟩
    · exact State.check_related ⟨_, rfl⟩ (fun _ => ⟨_, rfl⟩) h
    · exact State.check_related ⟨_, rfl⟩ (fun _ => ⟨_, rfl⟩) h
    · cases h; exact ⟨_, rfl, _, rfl⟩
  | rxb b =>
    cases exec_case h with
    | rxbClosed _ hp => exact ⟨_, exec_of_case (.rxbClosed b hp), _, rfl⟩
    | rxbHdr0 _ hp => exact ⟨_, exec_of_case (.rxbHdr0 b hp), _, rfl⟩
    | rxbHdr1 _ hp => exact ⟨_, exec_of_case (.rxbHdr1 b hp), _, rfl⟩
    | rxbStart _ hp hs => exact ⟨_, exec_of_case (.rxbStart b hp hs), _, rfl⟩
    | rxbCont _ hp hs hi => exact ⟨_, exec_of_case (.rxbCont b hp hs hi), _, rfl⟩
    | rxbOrphan _ hp hs hi => exact ⟨_, exec_of_case (.rxbOrphan b hp hs hi), _, rfl⟩
  | rxend =>
    cases exec_case h with
    | rxendClosed hp => exact ⟨_, exec_of_case (.rxendClosed hp), _, rfl⟩
    | rxendShort hp => exact ⟨_, exec_of_case (.rxendShort hp), _, rfl⟩
    | rxendUnframed hp hm => exact ⟨_, exec_of_case (.rxendUnframed hp hm), _, rfl⟩
    | rxendFramed hp hm => exact ⟨_, exec_of_case (.rxendFramed hp hm), _, rfl⟩

/-- Settles O11: an operation writes `ERR` by its outcome alone, and no operation looks at what `ERR` holds. -/
theorem errKeepsFirstFaultAndBlocksNothing : Obligations.ErrKeepsFirstFaultAndBlocksNothing := by
  refine ⟨fun i s t he => (exec_case he).err_eq, fun w s t hw he => ?_, fun _ => rfl, rfl, fun i s t e he => ?_⟩
  · rw [eq_takeFault_of_illegal hw he]; rfl
  · obtain ⟨_, hu, e', rfl⟩ := exec_ignores_err he e
    exact ⟨e', hu⟩

/-! ## `MAGIC` and the tables -/

/-- `s` with another key and other tables. -/
def State.withTables (s : State) (m : Byte) (f g : Memory) : State := { s with magic := m, fwd := f, inv := g }

@[simp] theorem State.withTables_keyv (s : State) (m : Byte) (f g : Memory) : (s.withTables m f g).keyv = s.keyv := rfl

@[simp] theorem State.withTables_incmd (s : State) (m : Byte) (f g : Memory) : (s.withTables m f g).incmd = s.incmd := rfl

theorem State.sumBody_withTables (s : State) (p m : Byte) (f g : Memory) :
    (s.withTables m f g).sumBody p = (s.sumBody p).withTables m f g := rfl

/-- The class of a byte moves the same registers whatever the key and the tables are. -/
theorem State.classByte_withTables (s : State) (p m : Byte) (f g : Memory) :
    (s.withTables m f g).classByte p = (s.classByte p).withTables m f g := by
  simp only [State.classByte, State.withTables_incmd]
  cases classify s.incmd p <;> rfl

/-- `u` is `t` but for `MAGIC` and the tables, and agrees on those too once a key is loaded. -/
def State.EqButTables (t u : State) : Prop :=
  ∃ m f g, u = t.withTables m f g ∧
    (t.keyv = true → m = t.magic ∧ ∀ b : Byte, f.read b.toNat = t.fwd.read b.toNat ∧ g.read b.toNat = t.inv.read b.toNat)

/-- With no key loaded, what `MAGIC` and the tables hold is no part of the comparison. -/
theorem State.eqButTables_of_unkeyed {t : State} (hk : t.keyv = false) (m : Byte) (f g : Memory) :
    t.EqButTables (t.withTables m f g) :=
  ⟨m, f, g, rfl, fun h => absurd (hk.symm.trans h) (by decide)⟩

/-- SETKEY leaves nothing of the key and the tables before it. -/
theorem State.loadKey_eqButTables (s : State) (k m : Byte) (f g : Memory) :
    ((s.loadKey k).result 0 0).EqButTables (((s.withTables m f g).loadKey k).result 0 0) := by
  refine ⟨k, _, _, rfl, fun _ => ⟨rfl, fun b => ?_⟩⟩
  simp only [State.result_fwd, State.result_inv, State.loadKey_fwd, State.loadKey_inv, Memory.read_rewrite, and_self]

/-- In a PLAIN unit a received byte is its own plain byte. -/
theorem State.plainByte_of_plain {s : State} (hm : s.rxm = .plain) (b : Byte) : s.plainByte b = b := if_pos hm

/-- With no key loaded and the invariants kept, no operation looks at `MAGIC` or the tables. -/
theorem exec_ignores_tables {i : Instr} {s t : State} (hs : s.Inv) (hk : s.keyv = false) (h : exec i s = .next t) (m : Byte)
    (f g : Memory) : ∃ u, exec i (s.withTables m f g) = .next u ∧ t.EqButTables u := by
  have same {t : State} (ht : t.keyv = false := by exact hk) := State.eqButTables_of_unkeyed ht m f g
  cases i with
  | setkey k => cases h; exact ⟨_, rfl, s.loadKey_eqButTables k m f g⟩
  | nop | errack | enc35 | enc32s | txopen | txck => cases h; exact ⟨_, rfl, same⟩
  | swz | uswz | txb => exact State.check_related same (fun hb => by simp [hk] at hb) h
  | enc14 | dec14 | dec35 | dec32s => exact State.check_related same (fun _ => same) h
  | rxopen mode =>
    rcases RxMode.ofBits_cases mode with ⟨rfl, -⟩ | ⟨rfl, -⟩ | ⟨rfl, -⟩ | ⟨rfl, -⟩
    · cases h; exact ⟨_, rfl, same⟩
    · exact State.check_related same (fun _ => same) h
    · exact State.check_related same (fun _ => same) h
    · cases h; exact ⟨_, rfl, same⟩
  | rxb b =>
    rcases exec_rxb_cases h with ⟨hp, rfl⟩ | ⟨hp, rfl⟩ | ⟨hp, rfl⟩ | ⟨hp, rfl⟩
    · exact ⟨_, exec_rxb_closed b hp, same⟩
    · exact ⟨_, exec_rxb_hdr0 b hp, same⟩
    · exact ⟨_, exec_rxb_hdr1 b hp, same⟩
    · have hm := hs.plain_of_unkeyed hk hp
      have hb : exec (.rxb b) (s.withTables m f g) = _ := exec_rxb_body b hp
      rw [State.plainByte_of_plain (by exact hm)] at hb
      rw [s.plainByte_of_plain hm]
      refine ⟨_, hb, ?_⟩
      rw [s.sumBody_withTables, State.classByte_withTables]
      exact same (by simpa using hk)
  | rxend =>
    rcases exec_rxend_cases h with ⟨hp, rfl⟩ | ⟨hp, rfl⟩ | ⟨hp, hm, rfl⟩ | ⟨hp, hm, rfl⟩
    · exact ⟨_, exec_rxend_closed hp, same⟩
    · exact ⟨_, exec_rxend_header hp, same⟩
    · exact ⟨_, exec_rxend_unframed hp hm, same⟩
    · exact absurd (hm.symm.trans (hs.plain_of_unkeyed hk hp)) (by decide)

/-- Every operation that needs a table faults while no key is loaded (rule R18). -/
theorem exec_noKey {i : Instr} {s : State} (hk : s.keyv = false) (hn : needsKey i = true) :
    exec i s = .next (s.takeFault .noKey) := by
  cases i with
  | swz b => simp [exec_swz, hk]
  | uswz c => simp [exec_uswz, hk]
  | txb p => simp [exec_txb, hk]
  | rxopen m =>
    rcases RxMode.ofBits_cases m with ⟨rfl, -⟩ | ⟨rfl, -⟩ | ⟨rfl, -⟩ | ⟨rfl, -⟩
    · exact absurd hn (by decide)
    · simp [exec_rxopen_unframed, hk]
    · simp [exec_rxopen_framed, hk]
    · exact absurd hn (by decide)
  | _ => exact absurd hn Bool.false_ne_true

/-- `KEYV` is 1 after an operation if it was, or the operation is SETKEY (rule R18). -/
theorem ExecCase.keyv_iff {i : Instr} {s t : State} (h : ExecCase s i t) :
    t.keyv = true ↔ s.keyv = true ∨ ∃ k, i = .setkey k := by
  by_cases hi : ∃ k, i = .setkey k
  · obtain ⟨k, rfl⟩ := hi
    cases h
    simp
  · rw [(h.keeps_key fun k hk => hi ⟨k, hk⟩).2.1]
    simp [hi]

/-- Settles O21: with no key loaded every table-reading operation faults or, by the invariants, cannot be reached. -/
theorem unkeyedTablesAreNotObservable : Obligations.UnkeyedTablesAreNotObservable := by
  refine ⟨rfl, fun _ => rfl, fun i s t he => (exec_case he).keyv_iff, fun w s t hw he => ?_, fun i s hk hn => exec_noKey hk hn,
    fun i s t m f g hs hk he => ?_⟩
  · rw [eq_takeFault_of_illegal hw he]; rfl
  · obtain ⟨_, hu, m', f', g', rfl, hsame⟩ := exec_ignores_tables hs hk he m f g
    exact ⟨m', f', g', hu, hsame⟩

end Sys2Proof.Machine

/-! PROOF. The receive phase and the flags, moved as the tables of `10_state.md` rules R22 and R25 say. -/

namespace Sys2Proof.Machine

/-! ## The two events of rule R22 -/

/-- Only an RXB starts a run. -/
theorem State.not_startsRun {s : State} {i : Instr} (hi : ∀ b, i ≠ .rxb b) : ¬ s.startsRun i :=
  fun ⟨b, hb, _⟩ => hi b hb

/-- Only an RXB brings an orphan. -/
theorem State.not_getsOrphan {s : State} {i : Instr} (hi : ∀ b, i ≠ .rxb b) : ¬ s.getsOrphan i :=
  fun ⟨b, hb, _⟩ => hi b hb

@[simp] theorem State.startsRun_rxb (s : State) (b : Byte) :
    s.startsRun (.rxb b) ↔ s.rxph = .body ∧ isStart (s.plainByte b) = true := by
  simp [State.startsRun, isStart_iff]

@[simp] theorem State.getsOrphan_rxb (s : State) (b : Byte) :
    s.getsOrphan (.rxb b) ↔ s.rxph = .body ∧ isStart (s.plainByte b) = false ∧ s.incmd = false := by
  simp [State.getsOrphan, isStart]

/-! ## Operations off the receive path, and faults -/

section
variable {i : Instr} {s t : State} (h : ExecCase s i t)
include h

/-- An operation off the receive path leaves the receive phase and the four flags of the path. -/
theorem ExecCase.keeps_receive (hi : isReceive i = false) :
    t.rxph = s.rxph ∧ t.incmd = s.incmd ∧ t.soc = s.soc ∧ t.orph = s.orph ∧ t.orphs = s.orphs := by
  cases h with
  | rxopenPlain | rxopenUnframed | rxopenFramed | rxbHdr0 | rxbHdr1 | rxbStart | rxbCont | rxbOrphan | rxendShort
  | rxendUnframed | rxendFramed => cases hi
  | _ => exact ⟨rfl, rfl, rfl, rfl, rfl⟩

/-- `NC` is written by DEC32S only (`42_codec7.md` rule R105). -/
theorem ExecCase.keeps_nc (hi : ∀ g0 g1 g2 g3 g4, i ≠ .dec32s g0 g1 g2 g3 g4) : t.nc = s.nc := by
  cases h with
  | dec32s => exact absurd rfl (hi _ _ _ _ _)
  | _ => rfl

end

/-- RXB moves the phase along the header into the body and keeps it there (rule R25). -/
def RxPhase.afterByte : RxPhase → RxPhase
  | .closed => .closed
  | .hdr0 => .hdr1
  | .hdr1 => .body
  | .body => .body

theorem ExecCase.rxph_rxb {b : Byte} {s t : State} (h : ExecCase s (.rxb b) t) : t.rxph = s.rxph.afterByte := by
  cases h with
  | rxbClosed _ hp | rxbHdr0 _ hp | rxbHdr1 _ hp | rxbStart _ hp | rxbCont _ hp | rxbOrphan _ hp =>
    simp [hp, RxPhase.afterByte]

/-- RXEND closes the unit, and leaves a closed path closed. -/
theorem ExecCase.rxph_rxend {s t : State} (h : ExecCase s .rxend t) : t.rxph = .closed := by
  cases h with
  | rxendClosed hp => exact hp
  | _ => rfl

/-- An RXOPEN that ends ok opens the unit in the phase of its mode. -/
theorem ExecCase.rxph_rxopen {m : BitVec 2} {s t : State} (h : ExecCase s (.rxopen m) t) (hok : t.lasterr = 0) :
    t.rxph = if m = 2 then .hdr0 else .body := by
  cases h with
  | rxopenPlain | rxopenUnframed | rxopenFramed => rfl
  | _ => exact absurd hok (s.takeFault_lasterr_ne_zero _)

/-- RXB and RXEND with no unit open fault `NotOpen`. -/
theorem ExecCase.notOpen {i : Instr} {s t : State} (h : ExecCase s i t) (hi : (∃ b, i = .rxb b) ∨ i = .rxend)
    (hp : s.rxph = .closed) : t = s.takeFault .notOpen := by
  have he : exec i s = .next (s.takeFault .notOpen) := by
    rcases hi with ⟨b, rfl⟩ | rfl
    exacts [exec_rxb_closed b hp, exec_rxend_closed hp]
  exact Host.Outcome.next.inj ((exec_of_case h).symm.trans he)

/-- Settles O37: the table of rule R25, row by row. -/
theorem receivePhaseFollowsTable : Obligations.ReceivePhaseFollowsTable := by
  refine ⟨fun i s t he => ?_, fun w s t hw he => ?_, fun _ => rfl, rfl⟩
  · have h := exec_case he
    refine ⟨fun hl => ?_, fun hi => (h.keeps_receive hi).1, ?_, ?_, ?_, ?_, ?_, ?_, fun hi hp => ?_⟩
    · obtain ⟨c, rfl⟩ := h.eq_takeFault hl; rfl
    · rintro hok rfl; exact h.rxph_rxopen hok
    · rintro hok (rfl | rfl) <;> exact h.rxph_rxopen hok
    · rintro ⟨b, rfl⟩ hp; rw [h.rxph_rxb, hp]; rfl
    · rintro ⟨b, rfl⟩ hp; rw [h.rxph_rxb, hp]; rfl
    · rintro ⟨b, rfl⟩ hp; rw [h.rxph_rxb, hp]; rfl
    · rintro rfl; exact h.rxph_rxend
    · rw [h.notOpen hi hp]; exact ⟨hp, rfl⟩
  · rw [eq_takeFault_of_illegal hw he]; rfl

/-! ## The flags (rule R22) -/

/-- An RXOPEN that ends ok clears the four flags of the receive path. -/
theorem ExecCase.flags_rxopen {m : BitVec 2} {s t : State} (h : ExecCase s (.rxopen m) t) (hok : t.lasterr = 0) :
    t.incmd = false ∧ t.soc = false ∧ t.orph = false ∧ t.orphs = false := by
  cases h with
  | rxopenPlain | rxopenUnframed | rxopenFramed => exact ⟨rfl, rfl, rfl, rfl⟩
  | _ => exact absurd hok (s.takeFault_lasterr_ne_zero _)

/-- An RXEND that ends ok leaves only `ORPHS`; in a header phase the others are 0 already (`43_rx_framer.md` rule R126). -/
theorem ExecCase.flags_rxend {s t : State} (hs : s.Inv) (h : ExecCase s .rxend t) (hok : t.lasterr = 0) :
    t.incmd = false ∧ t.soc = false ∧ t.orph = false ∧ t.orphs = s.orphs := by
  cases h with
  | rxendClosed => exact absurd hok (s.takeFault_lasterr_ne_zero _)
  | rxendShort hp =>
    obtain ⟨-, hi, hsoc, ho, -⟩ := hs.header_clear hp
    exact ⟨hi, hsoc, ho, rfl⟩
  | _ => exact ⟨rfl, rfl, rfl, rfl⟩

/-- An RXB that ends ok sets the flags by its event; without one it leaves `INCMD` and `ORPHS` and clears the other two. -/
theorem ExecCase.flags_rxb {b : Byte} {s t : State} (hs : s.Inv) (h : ExecCase s (.rxb b) t) (hok : t.lasterr = 0) :
    (t.incmd = true ↔ s.startsRun (.rxb b) ∨ s.incmd = true) ∧ (t.soc = true ↔ s.startsRun (.rxb b)) ∧
    (t.orph = true ↔ s.getsOrphan (.rxb b)) ∧ (t.orphs = true ↔ s.getsOrphan (.rxb b) ∨ s.orphs = true) := by
  rw [State.startsRun_rxb, State.getsOrphan_rxb]
  cases h with
  | rxbClosed => exact absurd hok (s.takeFault_lasterr_ne_zero _)
  | rxbHdr0 _ hp | rxbHdr1 _ hp =>
    obtain ⟨-, hi, hsoc, ho, hos⟩ := hs.header_clear (by simp [hp])
    simp [hp, hi, hsoc, ho, hos]
  | rxbStart _ hp hc => simp [hp, hc]
  | rxbCont _ hp hc hi => simp [hp, hc, hi]
  | rxbOrphan _ hp hc hi => simp [hp, hc, hi]

/-- The rows of rule R22 for the four flags of the receive path, after an ok step. -/
theorem ExecCase.receive_flags {i : Instr} {s t : State} (hs : s.Inv) (h : ExecCase s i t) (hok : t.lasterr = 0) :
    (t.incmd = true ↔ s.startsRun i ∨ (s.incmd = true ∧ i ≠ .rxend ∧ ∀ m, i ≠ .rxopen m)) ∧
    (t.soc = true ↔ s.startsRun i ∨ (s.soc = true ∧ isReceive i = false)) ∧
    (t.orph = true ↔ s.getsOrphan i ∨ (s.orph = true ∧ isReceive i = false)) ∧
    (t.orphs = true ↔ s.getsOrphan i ∨ (s.orphs = true ∧ ∀ m, i ≠ .rxopen m)) := by
  cases i with
  | rxopen m => simp [h.flags_rxopen hok, State.not_startsRun, State.not_getsOrphan, isReceive]
  | rxb b => simpa [isReceive] using h.flags_rxb hs hok
  | rxend => simp [h.flags_rxend hs hok, State.not_startsRun, State.not_getsOrphan, isReceive]
  | _ => simp [h.keeps_receive rfl, State.not_startsRun, State.not_getsOrphan, isReceive]

/-- After an ok DEC32S `NC` says whether the field is non-canonical (`42_codec7.md` rule R105). -/
theorem ExecCase.nc_dec32s {g0 g1 g2 g3 g4 : Byte} {s t : State} (h : ExecCase s (.dec32s g0 g1 g2 g3 g4) t)
    (hok : t.lasterr = 0) : t.nc = nonCanonical (dec35Value g0 g1 g2 g3 g4) := by
  cases h with
  | dec32s => rfl
  | dec32sBad => exact absurd hok (s.takeFault_lasterr_ne_zero _)

/-- Settles O38: a fault moves no flag, and after an ok step each row of the table holds. -/
theorem flagsAreSetAndClearedAsTabled : Obligations.FlagsAreSetAndClearedAsTabled := by
  refine ⟨fun i s t hs he => ?_, fun w s t hw he => ?_, fun _ => ⟨rfl, rfl, rfl, rfl, rfl, rfl⟩⟩
  · have h := exec_case he
    refine ⟨fun hl => ?_, fun hok => ?_⟩
    · obtain ⟨c, rfl⟩ := h.eq_takeFault hl
      exact ⟨rfl, rfl, rfl, rfl, rfl, rfl⟩
    · obtain ⟨hincmd, hsoc, horph, horphs⟩ := h.receive_flags hs hok
      refine ⟨h.keyv_iff.trans or_comm, hincmd, hsoc, horph, horphs, h.keeps_nc, ?_⟩
      rintro g0 g1 g2 g3 g4 rfl
      rw [h.nc_dec32s hok]
  · rw [eq_takeFault_of_illegal hw he]
    exact ⟨rfl, rfl, rfl, rfl, rfl, rfl⟩

end Sys2Proof.Machine

/-! PROOF. What the host reads (`10_state.md` rules R33 to R35), and the values at reset (rule R39). -/

namespace Sys2Proof.Machine

/-- Zero extension to 40 bits keeps the number. -/
theorem zext40_toNat {n : Nat} (v : BitVec n) (hn : n ≤ 40) : (zext40 v).toNat = v.toNat := by
  rw [zext40, BitVec.toNat_setWidth]
  exact Nat.mod_eq_of_lt (v.isLt.trans_le (Nat.pow_le_pow_right (by decide) hn))

/-- Settles O58: a read hands out the numbered register and moves only the host's side. -/
theorem hostReadsReturnRegistersAndChangeNone : Obligations.HostReadsReturnRegistersAndChangeNone := by
  refine fun s => ⟨step_idle, fun n rest hi => ?_⟩
  have hstep : step s = .next { s with
      input := rest, readOut := some (s.readPort n), draws := if n = 3 ∧ s.keyv = false then s.draws + 1 else s.draws } := by
    rw [step_readReg hi]
    simp only [State.hostRead, State.taken, hi, List.tail_cons]
    rfl
  refine ⟨_, _, hstep, ?_, ?_, ?_, ?_, ?_, ?_, ?_, ?_, ?_, ?_, ?_, ?_, fun hn => ?_, ?_⟩
  · rintro rfl; exact zext40_toNat s.status (by decide)
  · rintro rfl; exact zext40_toNat s.err (by decide)
  · rintro rfl; exact zext40_toNat s.lasterr (by decide)
  · rintro rfl hk; simp [State.readPort, hk, zext40_toNat]
  · rintro rfl; exact (zext40_toNat (n := 8) _ (by decide)).trans_lt (BitVec.isLt _)
  · rintro rfl; rfl
  · rintro rfl; exact zext40_toNat s.rlen (by decide)
  · rintro rfl; exact zext40_toNat s.ckexp (by decide)
  · rintro rfl; exact zext40_toNat s.rxsum (by decide)
  · rintro rfl; exact zext40_toNat s.txsum (by decide)
  · rintro rfl; exact zext40_toNat s.clen (by decide)
  · rintro rfl; exact zext40_toNat s.prevlen (by decide)
  · have hne : ∀ k : BitVec 4, k.toNat < 11 → n ≠ k := by rintro k hk rfl; omega
    simp only [State.readPort]
    iterate 11 rw [if_neg (hne _ (by decide))]
  · split
    · exact .inr ‹_›
    · exact .inl rfl

theorem reset_tableForm : State.reset.TableForm := ⟨Memory.wf_nil, Memory.wf_nil⟩

theorem reset_unitForm : State.reset.UnitForm := .of_noVerdict rfl fun _ => rfl

/-- Settles O51: reset has no key, no unit, no verdict, no fault and nothing listed, so each invariant is immediate. -/
theorem invariantsHoldAtReset : Obligations.InvariantsHoldAtReset :=
  ⟨reset_inv, reset_tableForm, reset_faultForm, reset_unitForm⟩

/-- Settles O50: the reset input leaves every register of the block as power-on does. -/
theorem resetLeavesSpecifiedRegisters : Obligations.ResetLeavesSpecifiedRegisters := by
  unfold Obligations.ResetLeavesSpecifiedRegisters
  intro asSpecified
  have h : asSpecified State.reset := by simp only [asSpecified]; decide
  exact ⟨h, fun _ => h⟩

/-! ## `STATUS` (rule R33) -/

theorem Verdict.bits_injective : Function.Injective Verdict.bits := by
  intro v v'; cases v <;> cases v' <;> decide

theorem RxMode.bits_injective : Function.Injective RxMode.bits := by
  intro m m'; cases m <;> cases m' <;> decide

theorem RxPhase.bits_injective : Function.Injective RxPhase.bits := by
  intro p p'; cases p <;> cases p' <;> decide

section
variable (s : State)

theorem State.status_verdict : s.status.extractLsb' 6 2 = s.verdict.bits := by
  unfold State.status
  iterate 6 rw [BitVec.extractLsb'_append_eq_of_le (by decide)]
  exact BitVec.extractLsb'_append_eq_right

theorem State.status_rxm : s.status.extractLsb' 8 2 = s.rxm.bits := by
  unfold State.status
  iterate 7 rw [BitVec.extractLsb'_append_eq_of_le (by decide)]
  exact BitVec.extractLsb'_append_eq_right

theorem State.status_rxph : s.status.extractLsb' 10 2 = s.rxph.bits := by
  unfold State.status
  iterate 8 rw [BitVec.extractLsb'_append_eq_of_le (by decide)]
  exact BitVec.extractLsb'_append_eq_right

theorem State.status_high : s.status.extractLsb' 12 4 = 0 := by
  unfold State.status
  iterate 8 rw [BitVec.extractLsb'_append_eq_of_le (by decide)]
  exact BitVec.extractLsb'_append_eq_left

/-- Bits 0 to 5 of `STATUS` are the six flags. -/
theorem State.status_flags :
    s.status.getLsbD 0 = s.keyv ∧ s.status.getLsbD 1 = s.incmd ∧ s.status.getLsbD 2 = s.soc ∧
    s.status.getLsbD 3 = s.orph ∧ s.status.getLsbD 4 = s.orphs ∧ s.status.getLsbD 5 = s.nc := by
  simp only [State.status, BitVec.getLsbD_append]
  simp

end

/-- Settles O57: each field of `STATUS` is the register's code, and no two values of a register have one code. -/
theorem statusGathersFlagsAndFields : Obligations.StatusGathersFlagsAndFields := by
  intro s
  obtain ⟨h0, h1, h2, h3, h4, h5⟩ := s.status_flags
  have verdict (v : Verdict) := Verdict.bits_injective.eq_iff (a := s.verdict) (b := v)
  have rxm (m : RxMode) := RxMode.bits_injective.eq_iff (a := s.rxm) (b := m)
  have rxph (p : RxPhase) := RxPhase.bits_injective.eq_iff (a := s.rxph) (b := p)
  rw [s.status_verdict, s.status_rxm, s.status_rxph]
  exact ⟨h0, h1, h2, h3, h4, h5, rfl, rfl, rfl, s.status_high, verdict .noVerdict, verdict .matched, verdict .mismatch,
    verdict .short, rxm .plain, rxm .unframed, rxm .framed, rxph .closed, rxph .hdr0, rxph .hdr1, rxph .body⟩

end Sys2Proof.Machine

/-! PROOF. The tables' canonical form, kept by every step (`20_memory.md` rules R40, R41; log 5). -/

namespace Sys2Proof.Machine

/-- The canonical form rests on the two tables alone. -/
theorem State.TableForm.of_eq {s t : State} (h : s.TableForm) (hf : t.fwd = s.fwd) (hi : t.inv = s.inv) : t.TableForm where
  fwd := hf ▸ h.fwd
  inv := hi ▸ h.inv

/-- Every operation keeps the tables' canonical form: SETKEY rewrites them whole, no other operation writes them. -/
theorem ExecCase.keeps_tableForm {i : Instr} {s t : State} (h : s.TableForm) (hc : ExecCase s i t) : t.TableForm := by
  by_cases hi : ∃ k, i = .setkey k
  · obtain ⟨k, rfl⟩ := hi
    cases hc
    exact (s.loadKey_tableForm k h).of_eq rfl rfl
  · obtain ⟨-, -, hfwd, hinv⟩ := hc.keeps_key fun k hk => hi ⟨k, hk⟩
    exact h.of_eq hfwd hinv

/-- Settles O53: an operation keeps the form, faults and the host's reads leave the tables alone, and reset lists nothing. -/
theorem stepKeepsTablesCanonical : Obligations.StepKeepsTablesCanonical :=
  step_keeps (P := State.TableForm) (fun _ h => h.of_eq rfl rfl) (fun _ h => h.of_eq rfl rfl) (fun _ _ h => h.of_eq rfl rfl)
    (fun _ => reset_tableForm.of_eq rfl rfl) (fun _ _ _ h hc => hc.keeps_tableForm h)

end Sys2Proof.Machine

/-! SUPPORT. Decoding and encoding in terms of the opcode map's rows (`30_encoding.md` rules R65 to R75): which words a row
selects, that no word selects two, and that a row's fields and an instruction's word are made of each other. -/

namespace Sys2Proof

/-! ## Which row a word selects (rule R73) -/

/-- A match value has no `ARG` bits. -/
theorem opcodeMap_pattern_arg : ∀ r ∈ opcodeMap, r.pattern.toNat % 2 ^ 40 = 0 := by decide

/-- A row selects the words that have its `OP` and no `ARG` bit above its format's operand bits. -/
theorem OpRow.selects_iff_op_arg {r : OpRow} (hr : r ∈ opcodeMap) (w : OpWord) :
    r.selects w = true ↔ w.toNat / 2 ^ 40 = r.pattern.toNat / 2 ^ 40 ∧ w.toNat % 2 ^ 40 < 2 ^ r.format.operandBits := by
  have hp := opcodeMap_pattern_arg r hr
  rw [r.selects_iff (List.all_eq_true.1 opcodeMap_regular r hr)]
  cases r.format <;> simp only [Format.operandBits] <;> omega

/-- A word has one `OP`, so it selects at most one row. -/
theorem OpRow.eq_of_selects {r r' : OpRow} (hr : r ∈ opcodeMap) (hr' : r' ∈ opcodeMap) {w : OpWord} (h : r.selects w = true)
    (h' : r'.selects w = true) : r = r' :=
  List.inj_on_of_nodup_map (List.pairwise_map.2 opcodeMap_ops_distinct) hr hr'
    ((selects_op hr h).symm.trans (selects_op hr' h'))

/-- A word that selects a row decodes to what that row builds. -/
theorem decode_of_selects {r : OpRow} (hr : r ∈ opcodeMap) {w : OpWord} (h : r.selects w = true) :
    decode w = .ok (r.build w) := by
  obtain ⟨r', hfind⟩ := Option.isSome_iff_exists.1 (List.find?_isSome (p := (OpRow.selects · w)).2 ⟨r, hr, h⟩)
  have hr' : r' = r := OpRow.eq_of_selects (List.mem_of_find?_eq_some hfind) hr (List.find?_some hfind :) h
  simp only [decode, hfind, hr']

/-- The words that decode are the words that select a row. -/
theorem decode_ok_iff (w : OpWord) : (∃ i, decode w = .ok i) ↔ ∃ r ∈ opcodeMap, r.selects w = true := by
  constructor
  · rintro ⟨i, hi⟩
    obtain ⟨r, hr, hs, -⟩ := decode_ok hi
    exact ⟨r, hr, hs⟩
  · rintro ⟨r, hr, hs⟩
    exact ⟨_, decode_of_selects hr hs⟩

/-- A row's match value plus operand bits decodes to what the row builds of it. -/
theorem decode_pattern_add (n : Nat) (hn : n < opcodeMap.length) {w : OpWord} {i : Instr} {arg : Nat}
    (hw : w.toNat = opcodeMap[n].pattern.toNat + arg) (harg : arg < 2 ^ opcodeMap[n].format.operandBits)
    (hbuild : opcodeMap[n].build w = i) : decode w = .ok i := by
  have hr := List.getElem_mem hn
  have hp := opcodeMap_pattern_arg _ hr
  have hk : 2 ^ opcodeMap[n].format.operandBits ≤ 2 ^ 40 := by cases opcodeMap[n].format <;> decide
  have hs : opcodeMap[n].selects w = true := (OpRow.selects_iff_op_arg hr w).2 ⟨by omega, by omega⟩
  exact hbuild ▸ decode_of_selects hr hs

/-- Of the numbers below `n`, all but the listed ones are left: `n` less their count. -/
theorem length_filter_range_not_contains {ops : List Nat} {n : Nat} (hnodup : ops.Nodup) (hlt : ∀ op ∈ ops, op < n) :
    ((List.range n).filter (fun op => !ops.contains op)).length = n - ops.length := by
  have hperm : ((List.range n).filter (fun op => ops.contains op)).Perm ops :=
    (List.perm_ext_iff_of_nodup (List.nodup_range.filter _) hnodup).2 fun op => by simpa using hlt op
  have hsplit := (List.range n).length_eq_length_filter_add (fun op => ops.contains op)
  rw [List.length_range, hperm.length_eq] at hsplit
  omega

/-! ## Encoded words: their operand bits and their fields (rules R67 to R72) -/

theorem wordG2_toNat_append (op g0 g1 : Byte) : (wordG2 op g0 g1).toNat = op.toNat * 2 ^ 40 + (g0 ++ g1).toNat := by
  simp only [wordG2_toNat, toNat_append_add]
  omega

theorem wordG5_toNat_append (op g0 g1 g2 g3 g4 : Byte) :
    (wordG5 op g0 g1 g2 g3 g4).toNat = op.toNat * 2 ^ 40 + (g0 ++ g1 ++ g2 ++ g3 ++ g4).toNat := by
  simp only [wordG5_toNat, toNat_append_add]
  omega

theorem fieldB_wordB (op b : Byte) : fieldB (wordB op b) = b := BitVec.extractLsb'_append_eq_right

theorem fieldM_wordM (op : Byte) (m : BitVec 2) : fieldM (wordM op m) = m := BitVec.extractLsb'_append_eq_right

theorem fieldV_wordV (op : Byte) (v : BitVec 35) : fieldV (wordV op v) = v := BitVec.extractLsb'_append_eq_right

theorem fieldS_wordS (op : Byte) (x : BitVec 32) : fieldS (wordS op x) = x := BitVec.extractLsb'_append_eq_right

theorem fieldG_wordG2 (op g0 g1 : Byte) : fieldG 1 (wordG2 op g0 g1) = g0 ∧ fieldG 0 (wordG2 op g0 g1) = g1 := by
  constructor <;> apply BitVec.eq_of_toNat_eq <;> rw [fieldG, toNat_slice, wordG2_toNat] <;> omega

theorem fieldG_wordG5 (op g0 g1 g2 g3 g4 : Byte) :
    fieldG 4 (wordG5 op g0 g1 g2 g3 g4) = g0 ∧ fieldG 3 (wordG5 op g0 g1 g2 g3 g4) = g1 ∧
    fieldG 2 (wordG5 op g0 g1 g2 g3 g4) = g2 ∧ fieldG 1 (wordG5 op g0 g1 g2 g3 g4) = g3 ∧
    fieldG 0 (wordG5 op g0 g1 g2 g3 g4) = g4 := by
  refine ⟨?_, ?_, ?_, ?_, ?_⟩ <;> apply BitVec.eq_of_toNat_eq <;> rw [fieldG, toNat_slice, wordG5_toNat] <;> omega

/-- Encoding what a row builds of a word it selects gives the word back: the row's fields make up the word. -/
theorem encode_build {r : OpRow} (hr : r ∈ opcodeMap) {w : OpWord} (h : r.selects w = true) : encode (r.build w) = w := by
  refine opcodeMap_cases hr (fun r => w.toNat / 2 ^ r.format.operandBits = r.pattern.toNat / 2 ^ r.format.operandBits →
    encode (r.build w) = w) ?_ ?_ ?_ ?_ ?_ ((r.selects_iff (List.all_eq_true.1 opcodeMap_regular r hr) w).1 h)
  · simp only [systemRows, List.forall_mem_cons]
    exact ⟨wordZ_of_fields 0x00 w, wordZ_of_fields 0x01 w, nofun⟩
  · simp only [swizzleRows, List.forall_mem_cons]
    exact ⟨wordB_of_fields 0x10 w, wordB_of_fields 0x11 w, wordB_of_fields 0x12 w, nofun⟩
  · simp only [codecRows, List.forall_mem_cons]
    exact ⟨wordV_of_fields 0x20 w, wordV_of_fields 0x21 w, wordS_of_fields 0x22 w, wordG2_of_fields 0x28 w,
      wordG5_of_fields 0x29 w, wordG5_of_fields 0x2A w, nofun⟩
  · simp only [receiveRows, List.forall_mem_cons]
    exact ⟨wordM_of_fields 0x30 w, wordB_of_fields 0x31 w, wordZ_of_fields 0x32 w, nofun⟩
  · simp only [transmitRows, List.forall_mem_cons]
    exact ⟨wordZ_of_fields 0x38 w, wordB_of_fields 0x39 w, wordZ_of_fields 0x3A w, nofun⟩

end Sys2Proof

/-! PROOF. The encoding: the round trip both ways, which words spell no operation, and the step a word makes
(`30_encoding.md` rules R73 to R75). -/

namespace Sys2Proof.Machine

/-- Settles O1: each instruction's word is its row's match value plus operand bits, and the row's fields are the operands. -/
theorem decodeOfEncodeIsInstruction : Obligations.DecodeOfEncodeIsInstruction := by
  intro i
  cases i with
  | nop | errack | rxend | txopen | txck => decide
  | setkey k => exact decode_pattern_add 2 (by decide) (wordB_toNat _ k) k.isLt (congrArg _ (fieldB_wordB _ k))
  | swz b => exact decode_pattern_add 3 (by decide) (wordB_toNat _ b) b.isLt (congrArg _ (fieldB_wordB _ b))
  | uswz c => exact decode_pattern_add 4 (by decide) (wordB_toNat _ c) c.isLt (congrArg _ (fieldB_wordB _ c))
  | enc14 v => exact decode_pattern_add 5 (by decide) (wordV_toNat _ v) v.isLt (congrArg _ (fieldV_wordV _ v))
  | enc35 v => exact decode_pattern_add 6 (by decide) (wordV_toNat _ v) v.isLt (congrArg _ (fieldV_wordV _ v))
  | enc32s x => exact decode_pattern_add 7 (by decide) (wordS_toNat _ x) x.isLt (congrArg _ (fieldS_wordS _ x))
  | dec14 g0 g1 =>
    exact decode_pattern_add 8 (by decide) (wordG2_toNat_append _ g0 g1) (g0 ++ g1).isLt
      ((Instr.dec14.injEq ..).mpr (fieldG_wordG2 _ g0 g1))
  | dec35 g0 g1 g2 g3 g4 =>
    exact decode_pattern_add 9 (by decide) (wordG5_toNat_append _ g0 g1 g2 g3 g4) (g0 ++ g1 ++ g2 ++ g3 ++ g4).isLt
      ((Instr.dec35.injEq ..).mpr (fieldG_wordG5 _ g0 g1 g2 g3 g4))
  | dec32s g0 g1 g2 g3 g4 =>
    exact decode_pattern_add 10 (by decide) (wordG5_toNat_append _ g0 g1 g2 g3 g4) (g0 ++ g1 ++ g2 ++ g3 ++ g4).isLt
      ((Instr.dec32s.injEq ..).mpr (fieldG_wordG5 _ g0 g1 g2 g3 g4))
  | rxopen m => exact decode_pattern_add 11 (by decide) (wordM_toNat _ m) m.isLt (congrArg _ (fieldM_wordM _ m))
  | rxb b => exact decode_pattern_add 12 (by decide) (wordB_toNat _ b) b.isLt (congrArg _ (fieldB_wordB _ b))
  | txb p => exact decode_pattern_add 15 (by decide) (wordB_toNat _ p) p.isLt (congrArg _ (fieldB_wordB _ p))

/-- Settles O2: what decodes is what a selected row builds. -/
theorem encodeOfDecodeIsWord : Obligations.EncodeOfDecodeIsWord := by
  intro w i hi
  obtain ⟨r, hr, hs, rfl⟩ := decode_ok hi
  exact encode_build hr hs

/-- Settles O3: two rows have different `OP` values, and a word has only one. -/
theorem noWordSelectsTwoRows : Obligations.NoWordSelectsTwoRows :=
  opcodeMap_ops_distinct.imp_of_mem fun hr hr' hne _ ⟨h, h'⟩ =>
    hne ((OpRow.selects_op hr h).symm.trans (OpRow.selects_op hr' h'))

/-- Settles O4: the assigned pairs are the map's rows, each selecting by `OP` and operand bits; other words fault. -/
theorem illegalWordsFaultAndDoNothingElse : Obligations.IllegalWordsFaultAndDoNothingElse := by
  unfold Obligations.IllegalWordsFaultAndDoNothingElse
  intro assigned
  have hassigned : assigned = opcodeMap.map fun r => (r.pattern.toNat / 2 ^ 40, r.format.operandBits) := by decide
  refine ⟨fun w => ?_, fun w s hw => ?_, fun s => ⟨by decide, exec_rxopen_reserved s⟩, stepWord_next,
    length_filter_range_not_contains (by decide) (by decide)⟩
  · simp only [decode_ok_iff, hassigned, List.mem_map, exists_exists_and_eq_and]
    exact exists_congr fun r => and_congr_right fun hr => OpRow.selects_iff_op_arg hr w
  · obtain ⟨r, hr⟩ := decode_error_of_not_ok hw
    exact stepWord_error s hr

/-- What is left of a state whose first action is taken. -/
theorem State.taken_eq {s : State} {a : HostAction} {rest : List HostAction} (h : s.input = a :: rest) :
    s.taken = { s with input := rest } := by
  rw [State.taken, h, List.tail_cons]

/-- Settles O56: a step hands the first action on, and `taken` drops it from the list. -/
theorem stepRunsIssuedWord : Obligations.StepRunsIssuedWord := by
  refine fun s rest => ⟨fun w i h hw => ?_, fun w r h hw => ?_, fun h => ?_⟩
  · rw [step_word h, stepWord_ok _ hw, State.taken_eq h]
  · rw [step_word h, stepWord_error _ hw, State.taken_eq h]
    rfl
  · rw [step_reset h, State.taken_eq h]

end Sys2Proof.Machine

/-! PROOF. The two system operations: their words are their encodings, and each writes only the registers of its rule
(`40_system.md` rules R81, R82). -/

namespace Sys2Proof.Machine

/-- NOP's word is all zero (rule R81). -/
theorem encode_nop : encode .nop = 0x000000000000#48 := by decide

/-- ERRACK's word is its `OP` alone (rule R82). -/
theorem encode_errack : encode .errack = 0x010000000000#48 := by decide

/-- Settles O6: the word is NOP's encoding, and NOP runs `endOk`, which writes `LASTERR` alone. -/
theorem nopClearsOnlyLastErr : Obligations.NopClearsOnlyLastErr :=
  ⟨encode_nop ▸ decodeOfEncodeIsInstruction .nop, exec_nop⟩

/-- Settles O7: the word is ERRACK's encoding, and ERRACK runs `ackFault`, which writes `ERR` and `LASTERR` alone. -/
theorem errackClearsFaultRegisters : Obligations.ErrackClearsFaultRegisters :=
  ⟨encode_errack ▸ decodeOfEncodeIsInstruction .errack, exec_errack⟩

end Sys2Proof.Machine

/-! SUPPORT. The cipher's two functions (`41_swizzle.md` rules R85, R86): each undoes the other, one pair tells the key, what the
swizzle of 0 is, and the bits of the exchange and of the increment. -/

namespace Sys2Proof.Machine

/-- Each of the three steps of `S` undoes one of `U`, last step first. -/
@[simp] theorem swizzle_unswizzle (c m : Byte) : swizzle (unswizzle c m) m = c := by
  simp [swizzle, unswizzle]

/-- Under one key every byte is the wire byte of its unswizzled byte. -/
theorem swizzle_surjective (m : Byte) : Function.Surjective (fun b => swizzle b m) :=
  Function.RightInverse.surjective (g := fun c => unswizzle c m) fun c => swizzle_unswizzle c m

/-- For one plain byte, distinct keys give distinct wire bytes: the increment and the XOR with the key lose nothing. -/
theorem swizzle_key_injective (b : Byte) : Function.Injective (swizzle b) := fun _ _ h =>
  (BitVec.xor_right_inj _).1 ((BitVec.add_left_inj 1#8).1 h)

/-- The exchange and the XOR leave the key, so the increment of the key is left (rule R95). -/
theorem swizzle_zero (m : Byte) : swizzle 0 m = m + 1 := by
  have hswap : swap07 0 = 0 := by decide
  rw [swizzle, hswap]
  exact congrArg (· + 1) BitVec.zero_xor

/-- Bit 7 of an exchanged byte is its bit 0. -/
theorem getLsbD_seven_swap07 (b : Byte) : (swap07 b).getLsbD 7 = b.getLsbD 0 := by
  rw [swap07, BitVec.getLsbD_append, BitVec.getLsbD_append]
  simp

/-- An increment carries into bit 7 exactly when the seven bits below are all 1. -/
theorem getLsbD_seven_add_one (x : Byte) :
    (x + 1).getLsbD 7 = (x.getLsbD 7 ^^ (x.extractLsb' 0 7 == 0x7F#7)) := by
  have hcarry : BitVec.carry 7 x 1 false = (x.extractLsb' 0 7 == 0x7F#7) := by
    rw [Bool.eq_iff_iff, beq_iff_eq, ← BitVec.toNat_inj, toNat_slice]
    have hone : BitVec.toNat (1 : Byte) = 1 := rfl
    simp only [BitVec.carry, decide_eq_true_eq, BitVec.toNat_ofNat, Bool.toNat_false, hone, pow_zero, Nat.div_one]
    omega
  rw [BitVec.getLsbD_add (by decide), hcarry]
  simp

/-- The swizzle of 0 as rule R95 writes it. -/
theorem swizzle_zero_eq_ofNat (m : Byte) : swizzle 0 m = BitVec.ofNat 8 ((m.toNat + 1) % 256) := by
  apply BitVec.eq_of_toNat_eq
  rw [swizzle_zero]
  simp

/-- The least byte of a zero-extended byte is that byte. -/
@[simp] theorem resByte_zero_zext40 (b : Byte) : resByte 0 (zext40 b) = b := by
  apply BitVec.eq_of_toNat_eq
  rw [resByte, toNat_slice, zext40_toNat b (by decide)]
  omega

/-! ## The tables under SETKEY (rule R89) -/

/-- A rewrite touches no index past the table's 256 entries. -/
theorem Memory.read_rewrite_of_le (m : Memory) (f : Byte → Byte) {a : Nat} (ha : 256 ≤ a) : (m.rewrite f).read a = m.read a := by
  rw [Memory.rewrite_eq, Memory.read_writeBelow, if_neg (Nat.not_lt.2 ha)]

/-- A canonical table that already reads as the function is not changed by a rewrite with it. -/
theorem Memory.rewrite_eq_self {m : Memory} {f : Byte → Byte} (hm : m.wf) (h : ∀ b : Byte, m.read b.toNat = some (f b)) :
    m.rewrite f = m := by
  refine Memory.ext_of_wf _ _ (m.rewrite_wf f hm) hm fun a => ?_
  rcases Nat.lt_or_ge a 256 with ha | ha
  · obtain ⟨b, rfl⟩ : ∃ b : Byte, a = b.toNat := ⟨BitVec.ofNat 8 a, (Nat.mod_eq_of_lt ha).symm⟩
    rw [m.read_rewrite, h]
  · exact m.read_rewrite_of_le f ha

/-- Loading the key that is loaded changes nothing. -/
theorem State.Keyed.loadKey_eq {s : State} {k : Byte} (h : s.Keyed k) (hs : s.TableForm) : s.loadKey k = s := by
  obtain ⟨hkeyv, rfl, htables⟩ := h
  have hfwd := Memory.rewrite_eq_self hs.fwd fun b => (htables b).1
  have hinv := Memory.rewrite_eq_self hs.inv fun b => (htables b).2
  rw [State.loadKey, hfwd, hinv, ← hkeyv]

/-! ## The two lookups while a key is loaded (rules R90, R91) -/

theorem exec_swz_of_keyv {s : State} (hk : s.keyv = true) (b : Byte) :
    exec (.swz b) s = .next (s.result (zext40 (s.fwdAt b)) 1) := by
  simp [exec_swz, hk]

theorem exec_uswz_of_keyv {s : State} (hk : s.keyv = true) (c : Byte) :
    exec (.uswz c) s = .next (s.result (zext40 (s.invAt c)) 1) := by
  simp [exec_uswz, hk]

theorem State.Keyed.swz_next {s : State} {m : Byte} (h : s.Keyed m) (b : Byte) :
    exec (.swz b) s = .next (s.result (zext40 (swizzle b m)) 1) :=
  h.fwdAt_eq b ▸ exec_swz_of_keyv h.keyv b

theorem State.Keyed.uswz_next {s : State} {m : Byte} (h : s.Keyed m) (c : Byte) :
    exec (.uswz c) s = .next (s.result (zext40 (unswizzle c m)) 1) :=
  h.invAt_eq c ▸ exec_uswz_of_keyv h.keyv c

/-- SETKEY leaves its key loaded, from any state. -/
theorem loadKey_result_keyed (s : State) (k : Byte) : ((s.loadKey k).result 0 0).Keyed k :=
  (s.loadKey_keyed k).of_eq rfl rfl rfl rfl

end Sys2Proof.Machine

/-! PROOF. The cipher and its three operations (`41_swizzle.md`). -/

namespace Sys2Proof.Machine

/-- Settles O13: two keys cannot both fix a byte, because one pair determines the key. -/
theorem swizzleIsKeyedPermutation : Obligations.SwizzleIsKeyedPermutation := by
  refine ⟨fun m => ⟨⟨swizzle_injective m, swizzle_surjective m⟩, (unswizzle_swizzle · m), (swizzle_unswizzle · m)⟩, fun b => ?_,
    fun b _ _ h => swizzle_key_injective b h⟩
  by_contra! hfixed
  have hkeys : (0 : Byte) = 1 := swizzle_key_injective b ((hfixed 0).trans (hfixed 1).symm)
  exact absurd hkeys (by decide)

/-- Settles O15: the swizzle of 0 is the key's increment, and SWZ returns the swizzle. -/
theorem zeroByteRevealsKey : Obligations.ZeroByteRevealsKey :=
  ⟨fun m => ⟨swizzle_zero_eq_ofNat m, swizzle_zero_eq_ofNat m ▸ unswizzle_swizzle 0 m⟩,
    fun _ m h => ⟨_, h.swz_next 0, (resByte_zero_zext40 _).trans (swizzle_zero_eq_ofNat m)⟩⟩

/-- Settles O16: a whole rewrite reads as the cipher, past the tables nothing is written, and the loaded key's tables are those
already there. -/
theorem setkeyLoadsKeyAndBothTables : Obligations.SetkeyLoadsKeyAndBothTables := by
  refine fun k s => ⟨decodeOfEncodeIsInstruction (.setkey k),
    ⟨_, _, exec_setkey k s, (s.loadKey_keyed k).tables, fun a ha => ⟨?_, ?_⟩⟩, fun h hs => ?_⟩
  · exact s.fwd.read_rewrite_of_le _ ha
  · exact s.inv.read_rewrite_of_le _ ha
  · rw [exec_setkey, h.loadKey_eq hs, State.result]

/-- Settles O19: SETKEY leaves a keyed state, in which the lookups return the cipher's values. -/
theorem lookupsAfterSetkeyMatchFunctions : Obligations.LookupsAfterSetkeyMatchFunctions := fun k b s =>
  have hkeyed := loadKey_result_keyed s k
  ⟨_, _, _, exec_setkey k s, hkeyed.swz_next b, rfl, hkeyed.uswz_next b, rfl,
    fun hk => ⟨exec_noKey hk rfl, exec_noKey hk rfl⟩⟩

/-- Settles O12: each function undoes the other, step by step. -/
theorem swizzleRoundTrips : Obligations.SwizzleRoundTrips := fun b m => ⟨unswizzle_swizzle b m, swizzle_unswizzle b m⟩

/-- Settles O14: the exchange brings bit 0 to bit 7, the key's bit is added, and the increment carries into it. -/
theorem wireBitSevenComesFromBitZeroAndKey : Obligations.WireBitSevenComesFromBitZeroAndKey := by
  intro b m
  have ht2 : (swap07 b ^^^ m).getLsbD 7 = (b.getLsbD 0 ^^ m.getLsbD 7) := by
    rw [BitVec.getLsbD_xor, getLsbD_seven_swap07]
  exact ⟨ht2, by rw [swizzle, getLsbD_seven_add_one, ht2]⟩

/-- Settles O17: SWZ is one check of `KEYV` and a read of `FWD`. -/
theorem swzReturnsForwardEntry : Obligations.SwzReturnsForwardEntry := fun b _ =>
  ⟨decodeOfEncodeIsInstruction (.swz b), fun hk => exec_swz_of_keyv hk b, fun hk => exec_noKey hk rfl,
    fun m h => ⟨h.fwdAt_eq b, (h.fwdAt_eq 0).trans (swizzle_zero m)⟩⟩

/-- Settles O18: USWZ is one check of `KEYV` and a read of `INV`. -/
theorem uswzReturnsInverseEntry : Obligations.UswzReturnsInverseEntry := fun c _ =>
  ⟨decodeOfEncodeIsInstruction (.uswz c), fun hk => exec_uswz_of_keyv hk c, fun hk => exec_noKey hk rfl,
    fun _ h => h.invAt_eq c⟩

end Sys2Proof.Machine

/-! SUPPORT. The group codec (`42_codec7.md` rules R97 to R99, R58): what a group byte's bit 7 says, and that taking a number
apart into groups and putting groups together undo each other for every group count. -/

namespace Sys2Proof.Machine

/-! ## Bit 7 of a group byte (rule R58) -/

theorem topBit_eq (g : Byte) : topBit g = decide (0x80#8 ≤ g) :=
  (BitVec.msb_eq_getLsbD_last g).symm.trans (BitVec.msb_eq_decide g)

theorem any_topBit_iff {gs : List Byte} : gs.any topBit = true ↔ ∃ g ∈ gs, 0x80#8 ≤ g := by
  simp [topBit_eq]

theorem any_topBit_eq_false_iff {gs : List Byte} : gs.any topBit = false ↔ ∀ g ∈ gs, g < 0x80#8 := by
  simp [topBit_eq]

theorem toNat_low_seven (g : Byte) : (g.extractLsb' 0 7).toNat = g.toNat % 2 ^ 7 := by
  rw [toNat_slice, pow_zero, Nat.div_one]

/-! ## `enc` and `dec` inside their domains (rules R97, R98) -/

theorem enc_of_lt {n v : Nat} (h : v < 2 ^ (7 * n)) : enc v n = some (groupsOf n v) := if_pos h

theorem dec_of_lt {gs : List Byte} (h : ∀ g ∈ gs, g < 0x80#8) : dec gs = some (valueOf gs) := by
  rw [dec, any_topBit_eq_false_iff.2 h]
  rfl

/-! ## The groups of a number -/

@[simp] theorem length_groupsOf (n v : Nat) : (groupsOf n v).length = n := by
  induction n with
  | zero => rfl
  | succ n ih => rw [groupsOf, List.length_cons, ih]

/-- Groups have bit 7 clear. -/
theorem lt_of_mem_groupsOf {n v : Nat} : ∀ g ∈ groupsOf n v, g < 0x80#8 := by
  induction n with
  | zero => exact nofun
  | succ n ih =>
    refine List.forall_mem_cons.2 ⟨?_, ih⟩
    simp only [BitVec.lt_def, BitVec.toNat_ofNat]
    omega

theorem two_pow_seven_mul_succ (n : Nat) : 2 ^ (7 * (n + 1)) = 2 ^ (7 * n) * 128 := by
  rw [Nat.mul_add_one, Nat.pow_add]

/-- The groups of a number rest on its low `7 * n` bits alone. -/
theorem groupsOf_congr {n v w : Nat} (h : v ≡ w [MOD 2 ^ (7 * n)]) : groupsOf n v = groupsOf n w := by
  induction n with
  | zero => rfl
  | succ n ih =>
    rw [two_pow_seven_mul_succ] at h
    rw [groupsOf, groupsOf, ih (h.of_mul_right 128), ← Nat.mod_mul_right_div_self v, h, Nat.mod_mul_right_div_self]

/-! ## The number of a list of groups -/

theorem valueOf_lt (gs : List Byte) : valueOf gs < 2 ^ (7 * gs.length) := by
  induction gs with
  | nil => decide
  | cons g gs ih =>
    have hg := (g.extractLsb' 0 7).isLt
    rw [valueOf, List.length_cons, two_pow_seven_mul_succ]
    nlinarith

/-- A group byte with bit 7 clear counts with its whole value. -/
theorem valueOf_cons_of_lt {g : Byte} (hg : g < 0x80#8) (gs : List Byte) :
    valueOf (g :: gs) = g.toNat * 2 ^ (7 * gs.length) + valueOf gs := by
  have hlt : g.toNat < 2 ^ 7 := hg
  rw [valueOf, toNat_low_seven, Nat.mod_eq_of_lt hlt]

/-! ## The round trips (rule R99) -/

theorem valueOf_groupsOf (n v : Nat) : valueOf (groupsOf n v) = v % 2 ^ (7 * n) := by
  induction n with
  | zero => exact (Nat.mod_one v).symm
  | succ n ih =>
    have hdigit : v / 2 ^ (7 * n) % 128 % 2 ^ 8 % 2 ^ 7 = v / 2 ^ (7 * n) % 128 := by omega
    rw [groupsOf, valueOf, ih, length_groupsOf, toNat_low_seven, BitVec.toNat_ofNat, hdigit, two_pow_seven_mul_succ,
      Nat.mod_mul, Nat.mul_comm, Nat.add_comm]

/-- The first group of a list is the top digit of its number, and the others are the groups of what is left. -/
theorem groupsOf_valueOf {gs : List Byte} (h : ∀ g ∈ gs, g < 0x80#8) : groupsOf gs.length (valueOf gs) = gs := by
  induction gs with
  | nil => rfl
  | cons g gs ih =>
    obtain ⟨hg, hgs⟩ := List.forall_mem_cons.1 h
    have hhead : valueOf (g :: gs) / 2 ^ (7 * gs.length) % 128 = g.toNat := by
      rw [valueOf_cons_of_lt hg, Nat.mul_comm, Nat.mul_add_div (Nat.two_pow_pos _), Nat.div_eq_of_lt (valueOf_lt gs)]
      exact Nat.mod_eq_of_lt hg
    have htail : valueOf (g :: gs) ≡ valueOf gs [MOD 2 ^ (7 * gs.length)] := Nat.mul_add_mod' _ _ _
    rw [List.length_cons, groupsOf, hhead, groupsOf_congr htail, ih hgs, BitVec.ofNat_toNat, BitVec.setWidth_eq]

end Sys2Proof.Machine

/-! SUPPORT. Byte strings in results (`10_state.md` rule R15, `20_memory.md` rule R44): up to five bytes packed into a result are
read back from it. -/

namespace Sys2Proof.Machine

theorem packBytes_lt (bs : List Byte) : packBytes bs < 2 ^ (8 * bs.length) := by
  induction bs with
  | nil => decide
  | cons b bs ih =>
    rw [packBytes, List.length_cons, Nat.mul_add_one, Nat.pow_add]
    nlinarith [b.isLt]

/-- Each of a result's five bytes is a digit of the number the result was made of. -/
theorem resByte_ofNat {n : Nat} (hn : n < 5) (x : Nat) : resByte n (BitVec.ofNat 40 x) = BitVec.ofNat 8 (x / 2 ^ (8 * n)) := by
  have hsplit : 2 ^ 40 = 2 ^ (8 * n) * 2 ^ (40 - 8 * n) := by rw [← Nat.pow_add, Nat.add_sub_cancel' (by omega)]
  have hdvd : 2 ^ 8 ∣ 2 ^ (40 - 8 * n) := Nat.pow_dvd_pow 2 (by omega)
  apply BitVec.eq_of_toNat_eq
  rw [resByte, toNat_slice, BitVec.toNat_ofNat, BitVec.toNat_ofNat, hsplit, Nat.mod_mul_right_div_self,
    Nat.mod_mod_of_dvd _ hdvd]

/-- The packed bytes are read back whatever stands above them. -/
theorem unpackBytes_add_packBytes {bs : List Byte} (hlen : bs.length ≤ 5) (a : Nat) :
    unpackBytes bs.length (BitVec.ofNat 40 (a * 2 ^ (8 * bs.length) + packBytes bs)) = bs := by
  induction bs generalizing a with
  | nil => rfl
  | cons b bs ih =>
    have hlt : bs.length < 5 := hlen
    have hsplit : a * 2 ^ (8 * (bs.length + 1)) + packBytes (b :: bs)
        = (a * 2 ^ 8 + b.toNat) * 2 ^ (8 * bs.length) + packBytes bs := by
      rw [packBytes, Nat.mul_add_one, Nat.pow_add]
      ring
    have hhead : ((a * 2 ^ 8 + b.toNat) * 2 ^ (8 * bs.length) + packBytes bs) / 2 ^ (8 * bs.length)
        = a * 2 ^ 8 + b.toNat := by
      rw [Nat.mul_comm, Nat.mul_add_div (Nat.two_pow_pos _), Nat.div_eq_of_lt (packBytes_lt bs), Nat.add_zero]
    have hbyte : BitVec.ofNat 8 (a * 2 ^ 8 + b.toNat) = b := by
      apply BitVec.eq_of_toNat_eq
      rw [BitVec.toNat_ofNat]
      omega
    rw [List.length_cons, hsplit, unpackBytes, resByte_ofNat hlt, hhead, hbyte, ih hlt.le]

theorem unpackBytes_packBytes {bs : List Byte} (hlen : bs.length ≤ 5) :
    unpackBytes bs.length (BitVec.ofNat 40 (packBytes bs)) = bs := by
  simpa using unpackBytes_add_packBytes hlen 0

theorem unpackBytes_packBytes_groupsOf {n : Nat} (hn : n ≤ 5) (v : Nat) :
    unpackBytes n (BitVec.ofNat 40 (packBytes (groupsOf n v))) = groupsOf n v := by
  have h := unpackBytes_packBytes (bs := groupsOf n v)
  rw [length_groupsOf] at h
  exact h hn

end Sys2Proof.Machine

/-! SUPPORT. The two sizes the operations use (`30_encoding.md` rules R59, R60): the layouts of `42_codec7.md` rules R100 to R105
are the group functions at counts 2 and 5. -/

namespace Sys2Proof.Machine

/-! ## Encoding (rules R100, R101) -/

theorem group_eq_setWidth (d : BitVec 7) : group d = d.setWidth 8 := (BitVec.setWidth_eq_append (by decide)).symm

theorem group_slice (v : BitVec 35) (k : Nat) : group (v.extractLsb' k 7) = BitVec.ofNat 8 (v.toNat / 2 ^ k % 128) := by
  apply BitVec.eq_of_toNat_eq
  rw [group, toNat_append_add, toNat_slice, BitVec.toNat_ofNat, BitVec.toNat_ofNat]
  omega

theorem groupsOf_two (v : BitVec 35) :
    groupsOf 2 v.toNat = [group (v.extractLsb' 7 7), group (v.extractLsb' 0 7)] := by
  simp only [group_slice, groupsOf]

theorem groupsOf_five (v : BitVec 35) :
    groupsOf 5 v.toNat = [group (v.extractLsb' 28 7), group (v.extractLsb' 21 7), group (v.extractLsb' 14 7),
      group (v.extractLsb' 7 7), group (v.extractLsb' 0 7)] := by
  simp only [group_slice, groupsOf]

theorem zext40_enc14Bytes (v : BitVec 35) : zext40 (enc14Bytes v) = BitVec.ofNat 40 (packBytes (groupsOf 2 v.toNat)) := by
  rw [zext40, ← BitVec.ofNat_toNat, groupsOf_two, enc14Bytes, toNat_append_add]
  simp [packBytes]

theorem enc35Bytes_eq (v : BitVec 35) : enc35Bytes v = BitVec.ofNat 40 (packBytes (groupsOf 5 v.toNat)) := by
  apply BitVec.eq_of_toNat_eq
  rw [groupsOf_five, BitVec.toNat_ofNat]
  simp only [enc35Bytes, toNat_append_add, packBytes, List.length_cons, List.length_nil]
  omega

theorem unpackBytes_enc35Bytes (v : BitVec 35) : unpackBytes 5 (enc35Bytes v) = groupsOf 5 v.toNat := by
  rw [enc35Bytes_eq, unpackBytes_packBytes_groupsOf le_rfl]

theorem any_topBit_enc35Bytes (v : BitVec 35) : (unpackBytes 5 (enc35Bytes v)).any topBit = false := by
  rw [unpackBytes_enc35Bytes]
  exact any_topBit_eq_false_iff.2 lt_of_mem_groupsOf

theorem exec_enc35_groups (v : BitVec 35) (s : State) :
    exec (.enc35 v) s = .next (s.result (BitVec.ofNat 40 (packBytes (groupsOf 5 v.toNat))) 5) := by
  rw [exec_enc35, enc35Bytes_eq]

theorem outOfRange14_iff (v : BitVec 35) : outOfRange14 v = true ↔ 16383 < v.toNat := by
  rw [outOfRange14, decide_eq_true_eq, BitVec.lt_def]
  rfl

/-- ENC14's row is the only one with its `OP`, and its format leaves `ARG[39:35]` zero. -/
theorem not_decode_enc14_reserved {x : BitVec 5} (hx : x ≠ 0) (v : BitVec 35) :
    ¬ ∃ i, decode (0x20#8 ++ x ++ v) = .ok i := by
  have hformat : ∀ r ∈ opcodeMap, r.pattern.toNat / 2 ^ 40 = 0x20 → r.format.operandBits = 35 := by decide
  have hw : (0x20#8 ++ x ++ v).toNat = 0x20 * 2 ^ 40 + x.toNat * 2 ^ 35 + v.toNat := by
    simp only [toNat_append_add, BitVec.toNat_ofNat]
    omega
  have hxpos : x.toNat ≠ 0 := fun h => hx (BitVec.eq_of_toNat_eq h)
  rw [decode_ok_iff]
  rintro ⟨r, hr, hs⟩
  obtain ⟨hop, harg⟩ := (OpRow.selects_iff_op_arg hr _).1 hs
  rw [hformat r hr (by omega)] at harg
  omega

/-! ## Decoding (rules R103, R104) -/

theorem dec14Value_toNat (g0 g1 : Byte) : (dec14Value g0 g1).toNat = valueOf [g0, g1] := by
  rw [dec14Value, toNat_append_add]
  simp [valueOf]

theorem dec35Value_toNat (g0 g1 g2 g3 g4 : Byte) : (dec35Value g0 g1 g2 g3 g4).toNat = valueOf [g0, g1, g2, g3, g4] := by
  simp only [dec35Value, toNat_append_add, valueOf, List.length_cons, List.length_nil]
  omega

theorem valueOf_two {g0 g1 : Byte} (h : ∀ g ∈ [g0, g1], g < 0x80#8) : valueOf [g0, g1] = g0.toNat * 2 ^ 7 + g1.toNat := by
  simp only [List.forall_mem_cons] at h
  obtain ⟨h0, h1, -⟩ := h
  rw [valueOf_cons_of_lt h0, valueOf_cons_of_lt h1]
  simp [valueOf]

theorem valueOf_five {g0 g1 g2 g3 g4 : Byte} (h : ∀ g ∈ [g0, g1, g2, g3, g4], g < 0x80#8) :
    valueOf [g0, g1, g2, g3, g4]
      = g0.toNat * 2 ^ 28 + g1.toNat * 2 ^ 21 + g2.toNat * 2 ^ 14 + g3.toNat * 2 ^ 7 + g4.toNat := by
  simp only [List.forall_mem_cons] at h
  obtain ⟨h0, h1, h2, h3, h4, -⟩ := h
  rw [valueOf_cons_of_lt h0, valueOf_cons_of_lt h1, valueOf_cons_of_lt h2, valueOf_cons_of_lt h3, valueOf_cons_of_lt h4]
  simp [valueOf, Nat.add_assoc]

/-- The field of the five bytes that encode a value is the value. -/
theorem dec35Value_enc35Bytes (v : BitVec 35) :
    dec35Value (resByte 4 (enc35Bytes v)) (resByte 3 (enc35Bytes v)) (resByte 2 (enc35Bytes v)) (resByte 1 (enc35Bytes v))
      (resByte 0 (enc35Bytes v)) = v := by
  apply BitVec.eq_of_toNat_eq
  calc
    _ = valueOf (unpackBytes 5 (enc35Bytes v)) := dec35Value_toNat ..
    _ = v.toNat % 2 ^ (7 * 5) := by rw [unpackBytes_enc35Bytes, valueOf_groupsOf]
    _ = v.toNat := Nat.mod_eq_of_lt v.isLt

theorem groupsOf_dec35Value {g0 g1 g2 g3 g4 : Byte} (h : ∀ g ∈ [g0, g1, g2, g3, g4], g < 0x80#8) :
    groupsOf 5 (dec35Value g0 g1 g2 g3 g4).toNat = [g0, g1, g2, g3, g4] := by
  rw [dec35Value_toNat]
  exact groupsOf_valueOf h

/-! ## The signed reading (rules R102, R105, R108) -/

/-- The low bits of a sign extension are what was extended. -/
theorem extractLsb'_signExtend {n m : Nat} (x : BitVec n) (h : n ≤ m) : (x.signExtend m).extractLsb' 0 n = x := by
  rw [BitVec.signExtend_eq_append_of_le h, BitVec.extractLsb'_cast]
  exact BitVec.extractLsb'_append_eq_right

@[simp] theorem low32_sext35 (x : BitVec 32) : low32 (sext35 x) = x := extractLsb'_signExtend x (by decide)

@[simp] theorem extractLsb'_sext40 (x : BitVec 32) : (sext40 x).extractLsb' 0 32 = x := extractLsb'_signExtend x (by decide)

theorem sext35_eq_append (x : BitVec 32) : sext35 x = (if x.msb then 7#3 else 0#3) ++ x :=
  BitVec.signExtend_eq_append_of_le (by decide)

theorem sext35_of_nonneg {x : BitVec 32} (h : 0 ≤ x.toInt) : sext35 x = BitVec.ofNat 35 x.toNat := by
  have hmsb : x.msb = false := by rw [BitVec.msb_eq_toInt]; exact decide_eq_false h.not_gt
  rw [sext35, BitVec.signExtend_eq_setWidth_of_msb_false hmsb, BitVec.ofNat_toNat]

theorem append_low32 (f : BitVec 35) : f.extractLsb' 32 3 ++ low32 f = f := BitVec.extractLsb'_append_extractLsb'

theorem msb_low32 (f : BitVec 35) : (low32 f).msb = f.getLsbD 31 := by
  rw [low32, BitVec.msb_eq_getLsbD_last, BitVec.getLsbD_extractLsb']
  rfl

theorem low32_ofNat (v : Nat) : low32 (BitVec.ofNat 35 v) = BitVec.ofNat 32 v := by
  apply BitVec.eq_of_toNat_eq
  rw [low32, toNat_slice, BitVec.toNat_ofNat, BitVec.toNat_ofNat]
  omega

theorem nonCanonical_eq_false_iff (f : BitVec 35) :
    nonCanonical f = false ↔ f.extractLsb' 32 3 = if (low32 f).msb then 7#3 else 0#3 := by
  have hcopies : ∀ b : BitVec 1, b ++ b ++ b = if b == 1#1 then 7#3 else 0#3 := by decide
  rw [nonCanonical, bne_eq_false_iff_eq, hcopies, msb_low32, BitVec.getLsbD_eq_extractLsb']

/-- A field is canonical exactly when it is the sign extension of its low 32 bits (rule R108). -/
theorem nonCanonical_eq_false_iff_sext35 (f : BitVec 35) : nonCanonical f = false ↔ sext35 (low32 f) = f := by
  rw [nonCanonical_eq_false_iff, sext35_eq_append, eq_comm, ← BitVec.append_left_inj (low32 f), append_low32]

theorem nonCanonical_eq_false_iff_exists (f : BitVec 35) : nonCanonical f = false ↔ ∃ y : BitVec 32, sext35 y = f := by
  rw [nonCanonical_eq_false_iff_sext35]
  exact ⟨fun h => ⟨_, h⟩, fun ⟨y, hy⟩ => by rw [← hy, low32_sext35]⟩

end Sys2Proof.Machine

/-! SUPPORT. What a codec operation looks at and writes (`42_codec7.md` rules R110, R111). -/

namespace Sys2Proof.Machine

theorem ExecCase.codec_frame {i : Instr} {s t : State} (h : ExecCase s i t) (hi : isCodec i = true) :
    t = { s with res := t.res, rlen := t.rlen, nc := t.nc, lasterr := t.lasterr, err := t.err } := by
  cases h with
  | enc14 | enc14Range | enc35 | enc32s | dec14 | dec14Bad | dec35 | dec35Bad | dec32s | dec32sBad => rfl
  | _ => exact (Bool.false_ne_true hi).elim

/-- Two states that an operation left by the same outcome and, if it ended ok, with the same result. -/
def State.SameResult (t t' : State) : Prop :=
  t.lasterr = t'.lasterr ∧ (t.lasterr = 0 → t.res = t'.res ∧ t.rlen = t'.rlen)

theorem State.sameResult_takeFault (s s' : State) (c : FaultCode) : (s.takeFault c).SameResult (s'.takeFault c) :=
  ⟨rfl, fun hok => absurd hok (s.takeFault_lasterr_ne_zero c)⟩

theorem State.sameResult_result (s s' : State) (r : Word40) (n : BitVec 3) : (s.result r n).SameResult (s'.result r n) :=
  ⟨rfl, fun _ => ⟨rfl, rfl⟩⟩

/-- A codec operation's check and result are made of its operands alone. -/
theorem exec_codec_sameResult {i : Instr} {s s' t t' : State} (hi : isCodec i = true) (h : exec i s = .next t)
    (h' : exec i s' = .next t') : t.SameResult t' := by
  have hrelated : ∃ u, exec i s' = .next u ∧ t.SameResult u := by
    cases i with
    | enc35 | enc32s => cases h; exact ⟨_, rfl, s.sameResult_result s' _ _⟩
    | enc14 | dec14 | dec35 | dec32s =>
      exact State.check_related (s.sameResult_takeFault s' _) (fun _ => State.sameResult_result _ _ _ _) h
    | _ => exact (Bool.false_ne_true hi).elim
  obtain ⟨u, hu, hsame⟩ := hrelated
  cases h'.symm.trans hu
  exact hsame

end Sys2Proof.Machine

/-! PROOF. The group codec and its six operations (`42_codec7.md`). -/

namespace Sys2Proof.Machine

/-- Settles O22: the groups of a number put together are its low bits, and a list of groups is the groups of its number. -/
theorem groupCodecRoundTrips : Obligations.GroupCodecRoundTrips := by
  refine ⟨fun n v _ hv => ?_, fun gs _ hgs => ?_⟩
  · refine ⟨_, enc_of_lt hv, length_groupsOf n v, lt_of_mem_groupsOf, ?_⟩
    rw [dec_of_lt lt_of_mem_groupsOf, valueOf_groupsOf, Nat.mod_eq_of_lt hv]
  · refine ⟨_, dec_of_lt hgs, valueOf_lt gs, ?_⟩
    rw [enc_of_lt (valueOf_lt gs), groupsOf_valueOf hgs]

/-- Settles O23: ENC14 is one check of the range and the layout of two groups; a word with a reserved bit selects no row. -/
theorem enc14EncodesOrFaultsRange : Obligations.Enc14EncodesOrFaultsRange := by
  refine fun v s => ⟨decodeOfEncodeIsInstruction (.enc14 v), fun hv => ?_, fun hv => ?_, fun x hx => ?_⟩
  · have hok : outOfRange14 v = false := Bool.eq_false_iff.2 fun h => hv.not_gt ((outOfRange14_iff v).1 h)
    refine ⟨_, enc_of_lt (Nat.lt_succ_of_le hv), ?_, unpackBytes_packBytes_groupsOf (by decide) _, ?_⟩
    · rw [groupsOf_two, group_eq_setWidth, group_eq_setWidth]
    · rw [exec_of_case (.enc14 v hok), zext40_enc14Bytes]
      rfl
  · exact exec_of_case (.enc14Range v ((outOfRange14_iff v).2 hv))
  · obtain ⟨r, hr⟩ := decode_error_of_not_ok (not_decode_enc14_reserved hx v)
    exact stepWord_error s hr

/-- Settles O24: a 35-bit value is in the domain of five groups, and ENC35's layout is those groups. -/
theorem enc35EncodesFiveGroups : Obligations.Enc35EncodesFiveGroups := by
  refine fun v s => ⟨decodeOfEncodeIsInstruction (.enc35 v), _, enc_of_lt v.isLt, ?_,
    unpackBytes_packBytes_groupsOf le_rfl _, exec_enc35_groups v s⟩
  rw [groupsOf_five]
  simp only [group_eq_setWidth]

/-- Settles O25: ENC32S is ENC35 of the sign extension, which for an operand not negative is the zero extension. -/
theorem enc32sEncodesSignExtension : Obligations.Enc32sEncodesSignExtension := by
  refine fun x s => ⟨decodeOfEncodeIsInstruction (.enc32s x), ⟨sext35 x, BitVec.toInt_signExtend_of_le (by decide),
    low32_sext35 x, _, enc_of_lt (sext35 x).isLt, exec_enc35_groups (sext35 x) s⟩, fun hx => ?_⟩
  rw [exec_enc32s, exec_enc35, sext35_of_nonneg hx]

/-- Settles O26: DEC14 is one check of the two bits 7, and its number is the one the two groups stand for. -/
theorem dec14DecodesOrFaultsBadGroup : Obligations.Dec14DecodesOrFaultsBadGroup := by
  refine fun g0 g1 s => ⟨decodeOfEncodeIsInstruction (.dec14 g0 g1), fun h0 h1 => ?_, fun hbad => ?_⟩
  · have hg : ∀ g ∈ [g0, g1], g < 0x80#8 := by simp [h0, h1]
    rw [dec_of_lt hg, exec_of_case (.dec14 g0 g1 (any_topBit_eq_false_iff.2 hg)), zext40, ← BitVec.ofNat_toNat,
      dec14Value_toNat, valueOf_two hg]
    exact ⟨rfl, rfl⟩
  · exact exec_of_case (.dec14Bad g0 g1 (any_topBit_iff.2 (by simpa using hbad)))

/-- Settles O27: DEC35 is one check of the five bits 7, and its number is the one the five groups stand for. -/
theorem dec35DecodesOrFaultsBadGroup : Obligations.Dec35DecodesOrFaultsBadGroup := by
  refine fun g0 g1 g2 g3 g4 s => ⟨decodeOfEncodeIsInstruction (.dec35 g0 g1 g2 g3 g4), fun hg => ?_, fun hbad => ?_⟩
  · rw [← valueOf_five hg, exec_of_case (.dec35 g0 g1 g2 g3 g4 (any_topBit_eq_false_iff.2 hg)), zext40,
      ← BitVec.ofNat_toNat, dec35Value_toNat]
    exact ⟨dec_of_lt hg, valueOf_lt _, rfl⟩
  · exact exec_of_case (.dec35Bad g0 g1 g2 g3 g4 (any_topBit_iff.2 hbad))

/-- Settles O28: the base-128 number is the field, whose low 32 bits DEC32S extends; `NC` is whether extending loses the field. -/
theorem dec32sReadsLow32BitsSigned : Obligations.Dec32sReadsLow32BitsSigned := by
  refine fun g0 g1 g2 g3 g4 s => ⟨decodeOfEncodeIsInstruction (.dec32s g0 g1 g2 g3 g4), fun hg => ?_, fun hbad => ?_⟩
  · have hfield := (dec35Value_toNat ..).trans (valueOf_five hg)
    rw [← hfield, ← low32_ofNat]
    simp only [BitVec.ofNat_toNat, BitVec.setWidth_eq, BitVec.toNat_inj]
    exact ⟨_, nonCanonical_eq_false_iff_exists _, nonCanonical_eq_false_iff _,
      exec_of_case (.dec32s g0 g1 g2 g3 g4 (any_topBit_eq_false_iff.2 hg))⟩
  · exact exec_of_case (.dec32sBad g0 g1 g2 g3 g4 (any_topBit_iff.2 hbad))

/-- Settles O29: the field of the five bytes is the sign extension of `x`; a canonical field is that of its low 32 bits. -/
theorem signedFieldRoundTrips : Obligations.SignedFieldRoundTrips := by
  refine ⟨fun x s => ?_, fun g0 g1 g2 g3 g4 s t he hok hnc => ?_⟩
  · have hfield := dec35Value_enc35Bytes (sext35 x)
    refine ⟨_, _, exec_enc32s x s, exec_of_case (.dec32s _ _ _ _ _ (any_topBit_enc35Bytes (sext35 x))), ?_, ?_, rfl⟩
    · simp only [State.result_res, hfield, low32_sext35]
      rfl
    · simp only [State.result_res, State.result_nc, State.setNc_nc, hfield]
      exact (nonCanonical_eq_false_iff_exists _).2 ⟨x, rfl⟩
  · cases exec_case he with
    | dec32s _ _ _ _ _ hg =>
      refine ⟨_, exec_enc32s _ _, ?_⟩
      rw [State.result_res, State.result_res, extractLsb'_sext40, (nonCanonical_eq_false_iff_sext35 _).1 hnc,
        unpackBytes_enc35Bytes, groupsOf_dec35Value (any_topBit_eq_false_iff.1 hg)]
    | dec32sBad => exact absurd hok (s.takeFault_lasterr_ne_zero _)

/-- Settles O30: outcome and result are made of the operands, DEC32S's `NC` too, and each case writes only the listed registers. -/
theorem codecOperationsArePure : Obligations.CodecOperationsArePure := by
  intro i s s' t t' hi he he'
  obtain ⟨hlast, hres⟩ := exec_codec_sameResult hi he he'
  have h := exec_case he
  refine ⟨hlast, hres, h.codec_frame hi, h.keeps_nc, ?_⟩
  rintro ⟨g0, g1, g2, g3, g4, rfl⟩ hok
  rw [h.nc_dec32s hok, (exec_case he').nc_dec32s (hlast ▸ hok)]

end Sys2Proof.Machine

/-! SUPPORT. The pure functions of a unit: the tokenizer and the checksum on a list and on two lists joined (`43_rx_framer.md` rules
R117, R118). -/

namespace Sys2Proof.Machine

theorem isStart_eq_false_iff (p : Byte) : isStart p = false ↔ p < 0x80#8 := by simp [isStart]

/-! ## The tokenizer -/

@[simp] theorem tokenize_nil : tokenize [] = ([], []) := rfl

/-- A start byte opens a run of itself and the bytes below 0x80 after it. -/
theorem tokenize_cons_start {p : Byte} (hp : isStart p = true) (ps : List Byte) :
    tokenize (p :: ps) = ([], (p :: (tokenize ps).1) :: (tokenize ps).2) := by simp [tokenize, hp]

/-- A byte below 0x80 is an orphan unless a byte before it opens a run. -/
theorem tokenize_cons_low {p : Byte} (hp : isStart p = false) (ps : List Byte) :
    tokenize (p :: ps) = (p :: (tokenize ps).1, (tokenize ps).2) := by simp [tokenize, hp]

theorem tokenize_orphans (P : List Byte) : (tokenize P).1 = P.takeWhile (fun p => decide (p < 0x80#8)) := by
  induction P with
  | nil => rfl
  | cons p ps ih =>
    cases hp : isStart p with
    | true => rw [tokenize_cons_start hp, List.takeWhile_cons_of_neg (by simpa using (isStart_iff p).1 hp)]
    | false => rw [tokenize_cons_low hp, ih, List.takeWhile_cons_of_pos (by simpa using (isStart_eq_false_iff p).1 hp)]

theorem tokenize_join (P : List Byte) : (tokenize P).1 ++ (tokenize P).2.flatten = P := by
  induction P with
  | nil => rfl
  | cons p ps ih =>
    cases hp : isStart p with
    | true => simpa [tokenize_cons_start hp] using ih
    | false => simpa [tokenize_cons_low hp] using ih

theorem lt_of_mem_tokenize_orphans {P : List Byte} {q : Byte} (hq : q ∈ (tokenize P).1) : q < 0x80#8 := by
  rw [tokenize_orphans] at hq
  simpa using List.mem_takeWhile_imp hq

theorem tokenize_runs (P : List Byte) :
    ∀ C ∈ (tokenize P).2, ∃ p ps, C = p :: ps ∧ 0x80#8 ≤ p ∧ ∀ q ∈ ps, q < 0x80#8 := by
  induction P with
  | nil => nofun
  | cons p ps ih =>
    cases hp : isStart p with
    | true =>
      rw [tokenize_cons_start hp]
      exact List.forall_mem_cons.2 ⟨⟨p, _, rfl, (isStart_iff p).1 hp, fun _ => lt_of_mem_tokenize_orphans⟩, ih⟩
    | false => rwa [tokenize_cons_low hp]

/-- Bytes below 0x80 in front of a list join its orphans. -/
theorem tokenize_append_low {ps : List Byte} (hps : ∀ q ∈ ps, q < 0x80#8) (Q : List Byte) :
    tokenize (ps ++ Q) = (ps ++ (tokenize Q).1, (tokenize Q).2) := by
  induction ps with
  | nil => rfl
  | cons p ps ih =>
    obtain ⟨hp, hps⟩ := List.forall_mem_cons.1 hps
    rw [List.cons_append, tokenize_cons_low ((isStart_eq_false_iff p).2 hp), ih hps, List.cons_append]

/-- A list of Commands joined is cut back into those Commands. -/
theorem tokenize_flatten {Cs : List (List Byte)}
    (hCs : ∀ C ∈ Cs, ∃ p ps, C = p :: ps ∧ 0x80#8 ≤ p ∧ ∀ q ∈ ps, q < 0x80#8) : tokenize Cs.flatten = ([], Cs) := by
  induction Cs with
  | nil => rfl
  | cons C Cs ih =>
    obtain ⟨⟨p, ps, rfl, hp, hps⟩, hrest⟩ := List.forall_mem_cons.1 hCs
    rw [List.flatten_cons, List.cons_append, tokenize_cons_start ((isStart_iff p).2 hp), tokenize_append_low hps, ih hrest,
      List.append_nil]

/-! ## The checksum -/

@[simp] theorem cksum_nil : cksum [] = 0 := rfl

@[simp] theorem cksum_cons (p : Byte) (ps : List Byte) : cksum (p :: ps) = p.setWidth 16 + cksum ps := rfl

theorem cksum_append (P Q : List Byte) : cksum (P ++ Q) = cksum P + cksum Q := by
  induction P with
  | nil => simp
  | cons p ps ih => simp [ih, add_assoc]

theorem cksum_eq_ofNat_sum (P : List Byte) : cksum P = BitVec.ofNat 16 ((P.map BitVec.toNat).sum) := by
  induction P with
  | nil => rfl
  | cons p ps ih => rw [cksum_cons, ih, List.map_cons, List.sum_cons, BitVec.ofNat_add, BitVec.ofNat_toNat]

/-- One byte changed to another moves the sum: the bytes about it cancel, and widening a byte loses nothing. -/
theorem cksum_set_ne {P : List Byte} {n : Nat} {c : Byte} (hn : n < P.length) (hc : P[n] ≠ c) :
    cksum (P.set n c) ≠ cksum P := by
  intro h
  have hsplit : P = P.take n ++ P[n] :: P.drop (n + 1) := by simp
  rw [List.set_eq_take_append_cons_drop, if_pos hn, cksum_append, cksum_cons] at h
  conv at h => rhs; rw [hsplit, cksum_append, cksum_cons]
  have hwide : c.setWidth 16 = P[n].setWidth 16 := add_right_cancel (add_left_cancel h)
  have hnat := congrArg BitVec.toNat hwide
  simp only [BitVec.toNat_setWidth] at hnat
  exact hc (BitVec.eq_of_toNat_eq (by omega))

end Sys2Proof.Machine

/-! PROOF. The pure functions of a unit (`43_rx_framer.md` rules R117, R118). -/

namespace Sys2Proof.Machine

/-- Settles O39: byte by byte, a start byte opens a run and a byte below 0x80 joins what stands before it. -/
theorem tokenizerCutsAtStartBytes : Obligations.TokenizerCutsAtStartBytes :=
  ⟨fun P => ⟨tokenize_orphans P, tokenize_join P, tokenize_runs P⟩, fun _ => tokenize_flatten⟩

/-- Settles O40: the checksum is the sum of the bytes as numbers, and a sum of numbers does not depend on their order. -/
theorem checksumIsSumModulo65536 : Obligations.ChecksumIsSumModulo65536 := by
  refine ⟨cksum_eq_ofNat_sum, rfl, cksum_append, fun P Q h => ?_⟩
  rw [cksum_eq_ofNat_sum, cksum_eq_ofNat_sum, (h.map BitVec.toNat).sum_eq]

end Sys2Proof.Machine

/-! SUPPORT. The receive operations: the words of RXOPEN, RXB and RXEND, and what the sum, the length counter and the reply are
(`43_rx_framer.md` rules R119 to R129). -/

namespace Sys2Proof.Machine

/-- RXEND's word is its `OP` alone (rule R125). -/
theorem encode_rxend : encode .rxend = 0x320000000000#48 := by decide

/-- The sum of rule R122 as a number. -/
theorem addByte_eq_ofNat (x : Word16) (p : Byte) : addByte x p = BitVec.ofNat 16 (x.toNat + p.toNat) := by
  rw [addByte, BitVec.ofNat_add, BitVec.ofNat_toNat, BitVec.ofNat_toNat, BitVec.setWidth_eq]

/-- `sat16` holds a count at 65535. -/
theorem sat16_eq_ofNat_min (n : Nat) : sat16 n = BitVec.ofNat 16 (min n 0xFFFF) := by
  unfold sat16
  split
  · rw [Nat.min_eq_left (by assumption)]
  · rw [Nat.min_eq_right (by omega)]

theorem sat16_toNat (n : Nat) : (sat16 n).toNat = min n 0xFFFF := by
  rw [sat16_eq_ofNat_min, BitVec.toNat_ofNat]
  omega

/-- Outside PLAIN mode a keyed state's plain byte is the unswizzled byte (rule R122). -/
theorem State.Keyed.plainByte_eq {s : State} {m : Byte} (h : s.Keyed m) (hm : s.rxm ≠ .plain) (b : Byte) :
    s.plainByte b = unswizzle b m := by
  rw [State.plainByte, if_neg hm, h.invAt_eq]

end Sys2Proof.Machine

/-! PROOF. RXOPEN, RXB and RXEND one by one (`43_rx_framer.md` rules R119 to R129). -/

namespace Sys2Proof.Machine

/-- Settles O31: the operand names a mode or is reserved, and a mode other than PLAIN is checked for the key. -/
theorem rxopenOpensUnitOrFaults : Obligations.RxopenOpensUnitOrFaults := by
  refine fun m s => ⟨decodeOfEncodeIsInstruction (.rxopen m), fun hm hk => ?_, ?_, ?_⟩
  · rcases RxMode.ofBits_cases m with ⟨rfl, -⟩ | ⟨rfl, -⟩ | ⟨rfl, -⟩ | ⟨rfl, -⟩
    · exact ⟨.plain, rfl, exec_rxopen_plain s⟩
    · exact ⟨.unframed, rfl, exec_of_case (.rxopenUnframed (hk.resolve_left (by decide)))⟩
    · exact ⟨.framed, rfl, exec_of_case (.rxopenFramed (hk.resolve_left (by decide)))⟩
    · exact absurd rfl hm
  · rintro rfl
    exact exec_rxopen_reserved s
  · rintro (rfl | rfl) hk
    · exact exec_noKey hk rfl
    · exact exec_noKey hk rfl

/-- Settles O32: RXB looks at the phase first, and in a header phase puts the byte into its half of `CKEXP`. -/
theorem rxbTakesHeaderBytesAsTheyArrive : Obligations.RxbTakesHeaderBytesAsTheyArrive := by
  refine fun b s => ⟨decodeOfEncodeIsInstruction (.rxb b), exec_rxb_closed b, exec_rxb_hdr0 b, exec_rxb_hdr1 b, fun hs hp => ?_⟩
  obtain ⟨-, -, hsoc, horph, -⟩ := hs.header_clear hp
  obtain ⟨-, hsum, -, -⟩ := hs.header hp
  exact ⟨hsum, hsoc, horph⟩

/-- Settles O33: each class of the plain byte is a case of RXB in phase BODY. -/
theorem rxbSumsAndClassifiesBodyBytes : Obligations.RxbSumsAndClassifiesBodyBytes := by
  intro b s hp p
  have hplain : p = s.plainByte b := rfl
  simp only [hplain, ← addByte_eq_ofNat, ← sat16_eq_ofNat_min]
  refine ⟨fun m h hm => h.plainByte_eq hm b, fun hs => ?_, fun hs hi => ?_, fun hs hi => ?_⟩
  · exact exec_of_case (.rxbStart b hp ((isStart_iff _).2 hs))
  · exact exec_of_case (.rxbCont b hp ((isStart_eq_false_iff _).2 hs) hi)
  · exact exec_of_case (.rxbOrphan b hp ((isStart_eq_false_iff _).2 hs) hi)

/-- Settles O34: RXEND looks at the phase and then at the mode; in BODY every mode closes the run alike. -/
theorem rxendClosesUnit : Obligations.RxendClosesUnit := by
  refine fun s => ⟨encode_rxend ▸ decodeOfEncodeIsInstruction .rxend, exec_rxend_closed, exec_rxend_header, fun hs hu hp => ?_,
    fun hp hm => exec_rxend_unframed hp ?_, fun hp => ?_⟩
  · obtain ⟨hclen, -, -, -, -⟩ := hs.header_clear hp
    obtain ⟨-, hsum, -, -⟩ := hs.header hp
    exact ⟨hu.header hp, hclen, hsum⟩
  · rcases hm with hm | hm <;> simp [hm]
  · by_cases hm : s.rxm = .framed
    · exact ⟨_, _, _, exec_rxend_framed hp hm⟩
    · exact ⟨_, _, _, exec_rxend_unframed hp hm⟩

/-- Settles O35: the comparison of the two sums decides the verdict and the token together. -/
theorem rxendGivesVerdictAndReply : Obligations.RxendGivesVerdictAndReply := by
  refine fun s hp hm => ⟨fun hsum => ?_, fun hsum => ?_, fun m h => ⟨h.fwdAt_eq _, h.fwdAt_eq _⟩⟩
  · rw [exec_rxend_framed hp hm, State.frameVerdict, State.replyToken, if_pos hsum, if_pos hsum]
    rfl
  · rw [exec_rxend_framed hp hm, State.frameVerdict, State.replyToken, if_neg hsum, if_neg hsum]
    rfl

end Sys2Proof.Machine

/-! SUPPORT. A unit received byte by byte: what each body byte leaves, the states of a body and its end in terms of the plain bytes
alone, and the states in which a body begins (`43_rx_framer.md` rules R119 to R124, R130). -/

namespace Sys2Proof.Machine

/-! ## Sequences of operations -/

theorem State.after_of_next {i : Instr} {s t : State} (h : exec i s = .next t) : s.after i = t := by simp only [State.after, h]

@[simp] theorem State.afterAll_nil (s : State) : s.afterAll [] = s := rfl

@[simp] theorem State.afterAll_cons (s : State) (i : Instr) (is : List Instr) :
    s.afterAll (i :: is) = (s.after i).afterAll is := rfl

@[simp] theorem State.trace_nil (s : State) : s.trace [] = [] := rfl

@[simp] theorem State.trace_cons (s : State) (i : Instr) (is : List Instr) :
    s.trace (i :: is) = s.after i :: (s.after i).trace is := rfl

theorem State.afterAll_append (s : State) (is js : List Instr) : s.afterAll (is ++ js) = (s.afterAll is).afterAll js := by
  induction is generalizing s with
  | nil => rfl
  | cons i is ih => exact ih _

@[simp] theorem rxStr_cons (b : Byte) (bs : List Byte) : rxStr (b :: bs) = .rxb b :: rxStr bs := rfl

/-! ## One body byte -/

/-- What RXB leaves in phase BODY, by the plain byte (rules R122, R123). -/
def State.bodyByte (s : State) (p : Byte) : State := ((s.sumBody p).classByte p).result (zext40 p) 1

theorem State.after_rxb_body {s : State} (hp : s.rxph = .body) (b : Byte) : s.after (.rxb b) = s.bodyByte (s.plainByte b) :=
  State.after_of_next (exec_rxb_body b hp)

section
variable (s : State) (p : Byte)

@[simp] theorem State.bodyByte_rxph : (s.bodyByte p).rxph = s.rxph := by simp [State.bodyByte]

@[simp] theorem State.bodyByte_rxm : (s.bodyByte p).rxm = s.rxm := by simp [State.bodyByte]

@[simp] theorem State.bodyByte_ckexp : (s.bodyByte p).ckexp = s.ckexp := by simp [State.bodyByte]

@[simp] theorem State.bodyByte_rxsum : (s.bodyByte p).rxsum = addByte s.rxsum p := by simp [State.bodyByte]

@[simp] theorem State.bodyByte_lasterr : (s.bodyByte p).lasterr = 0 := rfl

@[simp] theorem State.bodyByte_fwdAt : (s.bodyByte p).fwdAt = s.fwdAt := funext fun _ => by simp [State.bodyByte]

@[simp] theorem State.bodyByte_plainByte : (s.bodyByte p).plainByte = s.plainByte := funext fun _ => by
  simp [State.plainByte, State.bodyByte]

variable {s p}

theorem State.bodyByte_start (hp : isStart p = true) : s.bodyByte p = (s.sumBody p).startRun.result (zext40 p) 1 := by
  simp [State.bodyByte, State.classByte, classify, hp]

theorem State.bodyByte_cont (hp : isStart p = false) (hi : s.incmd = true) :
    s.bodyByte p = (s.sumBody p).contRun.result (zext40 p) 1 := by
  simp [State.bodyByte, State.classByte, classify, hp, hi]

theorem State.bodyByte_orphan (hp : isStart p = false) (hi : s.incmd = false) :
    s.bodyByte p = (s.sumBody p).orphanByte.result (zext40 p) 1 := by
  simp [State.bodyByte, State.classByte, classify, hp, hi]

end

/-! ## A body -/

/-- The state at the end of a body of these plain bytes. -/
def State.bodyEnd (s : State) (P : List Byte) : State := P.foldl State.bodyByte s

/-- The states a body of these plain bytes passes through. -/
def State.bodyStates (s : State) : List Byte → List State
  | [] => []
  | p :: ps => s.bodyByte p :: (s.bodyByte p).bodyStates ps

@[simp] theorem State.bodyEnd_nil (s : State) : s.bodyEnd [] = s := rfl

@[simp] theorem State.bodyEnd_cons (s : State) (p : Byte) (ps : List Byte) : s.bodyEnd (p :: ps) = (s.bodyByte p).bodyEnd ps := rfl

@[simp] theorem State.bodyStates_nil (s : State) : s.bodyStates [] = [] := rfl

@[simp] theorem State.bodyStates_cons (s : State) (p : Byte) (ps : List Byte) :
    s.bodyStates (p :: ps) = s.bodyByte p :: (s.bodyByte p).bodyStates ps := rfl

theorem State.afterAll_rxStr {s : State} (hp : s.rxph = .body) (bs : List Byte) :
    s.afterAll (rxStr bs) = s.bodyEnd (bs.map s.plainByte) := by
  induction bs generalizing s with
  | nil => rfl
  | cons b bs ih =>
    rw [rxStr_cons, State.afterAll_cons, State.after_rxb_body hp, ih ((State.bodyByte_rxph ..).trans hp), State.bodyByte_plainByte]
    rfl

theorem State.trace_rxStr {s : State} (hp : s.rxph = .body) (bs : List Byte) :
    s.trace (rxStr bs) = s.bodyStates (bs.map s.plainByte) := by
  induction bs generalizing s with
  | nil => rfl
  | cons b bs ih =>
    rw [rxStr_cons, State.trace_cons, State.after_rxb_body hp, ih ((State.bodyByte_rxph ..).trans hp), State.bodyByte_plainByte]
    rfl

/-- What no body byte moves, a body does not move. -/
theorem State.bodyEnd_keeps {α : Type} {f : State → α} (hf : ∀ s p, f (s.bodyByte p) = f s) (s : State) (P : List Byte) :
    f (s.bodyEnd P) = f s := by
  induction P generalizing s with
  | nil => rfl
  | cons p ps ih => exact (ih _).trans (hf s p)

@[simp] theorem State.bodyEnd_rxph (s : State) (P : List Byte) : (s.bodyEnd P).rxph = s.rxph :=
  State.bodyEnd_keeps State.bodyByte_rxph s P

@[simp] theorem State.bodyEnd_rxm (s : State) (P : List Byte) : (s.bodyEnd P).rxm = s.rxm :=
  State.bodyEnd_keeps State.bodyByte_rxm s P

@[simp] theorem State.bodyEnd_ckexp (s : State) (P : List Byte) : (s.bodyEnd P).ckexp = s.ckexp :=
  State.bodyEnd_keeps State.bodyByte_ckexp s P

@[simp] theorem State.bodyEnd_fwdAt (s : State) (P : List Byte) : (s.bodyEnd P).fwdAt = s.fwdAt :=
  State.bodyEnd_keeps State.bodyByte_fwdAt s P

/-- The sum of a body is the checksum of its plain bytes on top of what was there. -/
theorem State.bodyEnd_rxsum (s : State) (P : List Byte) : (s.bodyEnd P).rxsum = s.rxsum + cksum P := by
  induction P generalizing s with
  | nil => simp
  | cons p ps ih => rw [State.bodyEnd_cons, ih, State.bodyByte_rxsum, addByte, cksum_cons, add_assoc]

theorem State.bodyStates_lasterr (s : State) (P : List Byte) : ∀ t ∈ s.bodyStates P, t.lasterr = 0 := by
  induction P generalizing s with
  | nil => exact List.forall_mem_nil _
  | cons p ps ih => exact List.forall_mem_cons.2 ⟨s.bodyByte_lasterr p, ih _⟩

/-! ## The tokens, orphans and lengths of a body (rule R130)

Each is said of a body that goes on from any state: the bytes before its first start byte belong to the run that is open, or are
orphans if none is. -/

theorem State.bodyStates_token (s : State) (P : List Byte) :
    (s.bodyStates P).map State.token
      = (tokenize P).1.map (fun q => (q, if s.incmd then .cont else .orphan)) ++ (tokenize P).2.flatMap runTokens := by
  induction P generalizing s with
  | nil => rfl
  | cons p ps ih =>
    rw [State.bodyStates_cons, List.map_cons, ih]
    cases hp : isStart p with
    | true => simp [tokenize_cons_start hp, State.bodyByte_start hp, State.token, runTokens]
    | false =>
      cases hi : s.incmd with
      | true => simp [tokenize_cons_low hp, State.bodyByte_cont hp hi, State.token, hi]
      | false => simp [tokenize_cons_low hp, State.bodyByte_orphan hp hi, State.token, hi]

theorem State.bodyEnd_orphs (s : State) (P : List Byte) :
    (s.bodyEnd P).orphs = true ↔ s.orphs = true ∨ s.incmd = false ∧ (tokenize P).1 ≠ [] := by
  induction P generalizing s with
  | nil => simp
  | cons p ps ih =>
    rw [State.bodyEnd_cons, ih]
    cases hp : isStart p with
    | true => simp [tokenize_cons_start hp, State.bodyByte_start hp]
    | false =>
      cases hi : s.incmd with
      | true => simp [tokenize_cons_low hp, State.bodyByte_cont hp hi, hi]
      | false => simp [tokenize_cons_low hp, State.bodyByte_orphan hp hi]

/-- `CLEN` after these further bytes below 0x80: an open run grows by them, and with none open they are not counted. -/
def State.clenAfter (s : State) (os : List Byte) : Word16 := if s.incmd then sat16 (s.clen.toNat + os.length) else s.clen

@[simp] theorem State.clenAfter_nil (s : State) : s.clenAfter [] = s.clen := by
  have hlt := s.clen.isLt
  have hsat : sat16 s.clen.toNat = s.clen := BitVec.eq_of_toNat_eq ((sat16_toNat _).trans (by omega))
  simp [State.clenAfter, hsat]

/-- Counting on from a counter that saturates is saturating the whole count. -/
theorem sat16_sat16_toNat_add (m n : Nat) : sat16 ((sat16 m).toNat + n) = sat16 (m + n) := by
  apply BitVec.eq_of_toNat_eq
  simp only [sat16_toNat]
  omega

/-- The `PREVLEN` seen at the STARTs and `CLEN` at the end are the length of what was open and then those of the runs. -/
theorem State.bodyStates_lengths (s : State) (P : List Byte) :
    ((s.bodyStates P).filter (fun t => t.soc)).map (fun t => t.prevlen) ++ [(s.bodyEnd P).clen]
      = s.clenAfter (tokenize P).1 :: (tokenize P).2.map runLength := by
  induction P generalizing s with
  | nil => simp
  | cons p ps ih =>
    cases hp : isStart p with
    | true =>
      have hopen : (s.bodyByte p).clenAfter (tokenize ps).1 = runLength (p :: (tokenize ps).1) := by
        simp [State.bodyByte_start hp, State.clenAfter, runLength, Nat.add_comm]
      have hsoc : (s.bodyByte p).soc = true := by simp [State.bodyByte_start hp]
      have hprev : (s.bodyByte p).prevlen = s.clen := by simp [State.bodyByte_start hp]
      rw [State.bodyStates_cons, State.bodyEnd_cons, List.filter_cons_of_pos hsoc, List.map_cons, List.cons_append, ih, hopen,
        hprev, tokenize_cons_start hp, State.clenAfter_nil, List.map_cons]
    | false =>
      have hopen : (s.bodyByte p).clenAfter (tokenize ps).1 = s.clenAfter (p :: (tokenize ps).1) := by
        cases hi : s.incmd with
        | true => simp [State.bodyByte_cont hp hi, State.clenAfter, hi, sat16_sat16_toNat_add, Nat.add_assoc, Nat.add_comm 1]
        | false => simp [State.bodyByte_orphan hp hi, State.clenAfter, hi]
      have hsoc : (s.bodyByte p).soc = false := by
        cases hi : s.incmd with
        | true => simp [State.bodyByte_cont hp hi]
        | false => simp [State.bodyByte_orphan hp hi]
      rw [State.bodyStates_cons, State.bodyEnd_cons, List.filter_cons_of_neg (by simp [hsoc]), ih, hopen, tokenize_cons_low hp]

/-- Of lengths that begin with the 0 of RXOPEN, those after the first START's are the runs', or the 0 is the only one. -/
theorem tail_lengths {ls : List Word16} {x : Word16} {Cs : List (List Byte)} (h : ls ++ [x] = 0 :: Cs.map runLength) :
    ls.tail ++ [x] = if Cs = [] then [0] else Cs.map runLength := by
  cases ls with
  | nil =>
    obtain ⟨hx, hruns⟩ := List.cons.inj h
    rw [if_pos (List.map_eq_nil_iff.1 hruns.symm), hx, List.tail_nil, List.nil_append]
  | cons l ls =>
    obtain ⟨-, hruns⟩ := List.cons.inj h
    have hne : Cs ≠ [] := by
      rintro rfl
      simp at hruns
    rwa [if_neg hne, List.tail_cons]

/-! ## A unit without a header -/

/-- RXOPEN of a PLAIN unit, or of an UNFRAMED one under a loaded key, opens a body in which the received bytes are these plain
bytes. -/
theorem State.after_rxopen_bare {s : State} {m : BitVec 2} {bs P : List Byte}
    (h : m = 0 ∧ P = bs ∨ m = 1 ∧ ∃ k, s.Keyed k ∧ P = bs.map (fun b => unswizzle b k)) :
    ∃ mode, mode ≠ .framed ∧ s.after (.rxopen m) = (s.openUnit mode).result 0 0 ∧
      bs.map ((s.openUnit mode).result 0 0).plainByte = P := by
  rcases h with ⟨rfl, rfl⟩ | ⟨rfl, k, hk, rfl⟩
  · refine ⟨.plain, by decide, State.after_of_next (exec_rxopen_plain s), ?_⟩
    exact (List.map_congr_left fun b _ => State.plainByte_of_plain rfl b).trans (List.map_id P)
  · have hkeyed : ((s.openUnit .unframed).result 0 0).Keyed k := hk.of_eq rfl rfl rfl rfl
    refine ⟨.unframed, by decide, State.after_of_next (exec_of_case (.rxopenUnframed hk.keyv)), ?_⟩
    exact List.map_congr_left fun b _ => hkeyed.plainByte_eq (by simp) b

/-- RXEND of an open body that is no frame's. -/
theorem State.after_rxend_bare {s : State} (hp : s.rxph = .body) (hm : s.rxm ≠ .framed) :
    s.after .rxend = (s.closeUnit .noVerdict).result 0 0 :=
  State.after_of_next (exec_rxend_unframed hp hm)

/-! ## A frame -/

/-- Where the body of a frame begins: opened, and its two header bytes taken. -/
def State.frameBody (s : State) (h l : Byte) : State :=
  ((((s.openUnit .framed).result 0 0).headerHigh h).result 0 0 |>.headerLow l).result 0 0

theorem State.frameBody_rxph (s : State) (h l : Byte) : (s.frameBody h l).rxph = .body := rfl

theorem State.frameBody_rxm (s : State) (h l : Byte) : (s.frameBody h l).rxm = .framed := rfl

theorem State.frameBody_rxsum (s : State) (h l : Byte) : (s.frameBody h l).rxsum = 0 := rfl

/-- Each header byte lands in its own half of `CKEXP` (rule R121). -/
theorem State.frameBody_ckexp (s : State) (h l : Byte) : (s.frameBody h l).ckexp = h ++ l :=
  congrArg (· ++ l) (BitVec.extractLsb'_append_eq_left (a := h))

section
variable {s : State} {k : Byte} (hk : s.Keyed k)
include hk

theorem State.Keyed.frameBody (h l : Byte) : (s.frameBody h l).Keyed k := hk.of_eq rfl rfl rfl rfl

theorem State.Keyed.after_rxopen_framed : s.after (.rxopen 2) = (s.openUnit .framed).result 0 0 :=
  State.after_of_next (exec_of_case (.rxopenFramed hk.keyv))

theorem State.Keyed.after_header (h l : Byte) :
    ((s.after (.rxopen 2)).after (.rxb h)).after (.rxb l) = s.frameBody h l := by
  rw [hk.after_rxopen_framed, State.after_of_next (exec_rxb_hdr0 h rfl), State.after_of_next (exec_rxb_hdr1 l rfl)]
  rfl

theorem State.Keyed.map_plainByte_frameBody (h l : Byte) (bs : List Byte) :
    bs.map (s.frameBody h l).plainByte = bs.map (fun b => unswizzle b k) :=
  List.map_congr_left fun b _ => (hk.frameBody h l).plainByte_eq (by rw [State.frameBody_rxm]; decide) b

/-- A frame's body passes through the states of its unswizzled bytes. -/
theorem State.Keyed.trace_frame (h l : Byte) (bs : List Byte) :
    ((s.after (.rxopen 2)).trace (rxStr (h :: l :: bs))).drop 2
      = (s.frameBody h l).bodyStates (bs.map (fun b => unswizzle b k)) := by
  simp only [rxStr_cons, State.trace_cons, List.drop_succ_cons, List.drop_zero, hk.after_header,
    State.trace_rxStr (s.frameBody_rxph h l), hk.map_plainByte_frameBody]

/-- What a frame leaves: the body's end, closed with the verdict and the reply. -/
theorem State.Keyed.afterAll_frame (h l : Byte) (bs : List Byte) :
    let e := (s.frameBody h l).bodyEnd (bs.map (fun b => unswizzle b k))
    s.afterAll (rxUnit 2 (h :: l :: bs)) = (e.closeUnit e.frameVerdict).result (zext40 (e.fwdAt e.replyToken)) 1 := by
  intro e
  have hend : exec .rxend e = .next _ := exec_rxend_framed (by simp [e, State.frameBody_rxph]) (by simp [e, State.frameBody_rxm])
  simp only [rxUnit, rxStr_cons, List.cons_append, State.afterAll_cons, hk.after_header, State.afterAll_append,
    State.afterAll_rxStr (s.frameBody_rxph h l), hk.map_plainByte_frameBody, State.afterAll_nil]
  exact State.after_of_next hend

/-- The sum at a frame's end is the checksum of its unswizzled body. -/
theorem State.Keyed.frame_rxsum (h l : Byte) (bs : List Byte) :
    (s.afterAll (rxUnit 2 (h :: l :: bs))).rxsum = cksum (bs.map (fun b => unswizzle b k)) := by
  rw [hk.afterAll_frame]
  simp [State.bodyEnd_rxsum, State.frameBody_rxsum]

/-- The body leaves the announced checksum as the header wrote it. -/
theorem State.Keyed.frame_ckexp (h l : Byte) (bs : List Byte) : (s.afterAll (rxUnit 2 (h :: l :: bs))).ckexp = h ++ l := by
  rw [hk.afterAll_frame]
  simp [State.frameBody_ckexp]

/-- The verdict on a frame compares the checksum of its unswizzled body with its header (rule R128). -/
theorem State.Keyed.frame_verdict (h l : Byte) (bs : List Byte) :
    (s.afterAll (rxUnit 2 (h :: l :: bs))).verdict
      = if cksum (bs.map (fun b => unswizzle b k)) = h ++ l then .matched else .mismatch := by
  rw [hk.afterAll_frame]
  simp [State.frameVerdict, State.bodyEnd_rxsum, State.frameBody_rxsum, State.frameBody_ckexp]

/-- The reply to a frame is the token of the same comparison, swizzled (rule R129). -/
theorem State.Keyed.frame_res (h l : Byte) (bs : List Byte) :
    (s.afterAll (rxUnit 2 (h :: l :: bs))).res
      = zext40 (swizzle (if cksum (bs.map (fun b => unswizzle b k)) = h ++ l then Config.ackToken else Config.nakToken) k) := by
  rw [hk.afterAll_frame]
  simp [State.replyToken, State.bodyEnd_rxsum, State.frameBody_rxsum, State.frameBody_ckexp,
    (hk.frameBody h l).fwdAt_eq]

end

/-- An announced checksum is 0 exactly when both header bytes are. -/
theorem zero_eq_append_iff (h l : Byte) : 0#16 = h ++ l ↔ h = 0 ∧ l = 0 := by
  refine ⟨fun heq => ?_, fun ⟨hh, hl⟩ => by rw [hh, hl]; rfl⟩
  have hnat := congrArg BitVec.toNat heq
  rw [toNat_append_add, BitVec.toNat_ofNat] at hnat
  exact ⟨BitVec.eq_of_toNat_eq (by simp; omega), BitVec.eq_of_toNat_eq (by simp; omega)⟩

/-- A packet frame is the checksum's two halves and the swizzled payload (`30_encoding.md` rule R61). -/
theorem packetFrame_eq (P : List Byte) (k : Byte) :
    packetFrame P k = (cksum P).extractLsb' 8 8 :: (cksum P).extractLsb' 0 8 :: P.map (fun p => swizzle p k) := rfl

/-- Unswizzling the swizzled payload gives the payload back. -/
theorem map_unswizzle_map_swizzle (P : List Byte) (k : Byte) :
    (P.map (fun p => swizzle p k)).map (fun b => unswizzle b k) = P := by simp [Function.comp_def]

/-- The two header bytes put together are the checksum they are made of. -/
theorem header_append (c : Word16) : c.extractLsb' 8 8 ++ c.extractLsb' 0 8 = c := BitVec.extractLsb'_append_extractLsb'

end Sys2Proof.Machine

/-! PROOF. Whole units: streaming against the pure functions, and what a frame's verdict catches (`43_rx_framer.md` rules R128,
R130, R132). -/

namespace Sys2Proof.Machine

/-- Settles O41: the unit's states are those of its plain bytes, whose tokens, sum, orphans and lengths are said above; the length
before the first run is the 0 of RXOPEN. -/
theorem streamingReceiveEqualsPureFunctions : Obligations.StreamingReceiveEqualsPureFunctions := by
  intro s m bs P h steps u
  obtain ⟨mode, hmode, hopen, hP⟩ := State.after_rxopen_bare h
  set o := (s.openUnit mode).result 0 0
  have hbody : o.rxph = .body := if_neg hmode
  have hsteps : steps = o.bodyStates P := by rw [← hP, ← State.trace_rxStr hbody, ← hopen]
  have hu : u = ((o.bodyEnd P).closeUnit .noVerdict).result 0 0 := by
    rw [← State.after_rxend_bare ((o.bodyEnd_rxph P).trans hbody) ((o.bodyEnd_rxm P).trans_ne hmode), ← hP,
      ← State.afterAll_rxStr hbody, ← hopen]
    exact State.afterAll_append _ _ _
  rw [hsteps, hu]
  refine ⟨o.bodyStates_token P, ?_, ?_, ?_, o.bodyStates_lasterr P, rfl⟩
  · exact (o.bodyEnd_rxsum P).trans (zero_add _)
  · exact (o.bodyEnd_orphs P).trans (by simp [o])
  · rw [List.map_tail]
    exact tail_lengths (o.bodyStates_lengths P)

/-- Settles O42: the sum at a frame's end is its body's checksum, `CKEXP` is its header, and an empty body sums to 0. -/
theorem frameVerdictComparesChecksums : Obligations.FrameVerdictComparesChecksums := by
  refine fun s k h l bs hk => ⟨hk.frame_rxsum h l bs, hk.frame_ckexp h l bs, hk.frame_verdict h l bs, ?_⟩
  rintro rfl
  rw [hk.frame_verdict, List.map_nil, cksum_nil]
  exact Iff.trans (by simp) (zero_eq_append_iff h l)

/-- Settles O43: unswizzling gives the payload back, whose checksum is the header, so the sums compare equal. -/
theorem checksummedFrameEndsMatch : Obligations.ChecksummedFrameEndsMatch := by
  intro s k P hk
  rw [packetFrame_eq]
  have hpayload := map_unswizzle_map_swizzle P k
  have hheader := header_append (cksum P)
  have hsums := (congrArg cksum hpayload).trans hheader.symm
  refine ⟨(hk.frame_verdict ..).trans (if_pos hsums), (hk.frame_rxsum ..).trans (congrArg cksum hpayload),
    (hk.frame_ckexp ..).trans hheader, congrArg State.rxph (hk.afterAll_frame ..), ?_,
    congrArg State.rlen (hk.afterAll_frame ..), ?_⟩
  · rw [hk.frame_res, if_pos hsums, zext40]
  · rw [hk.trace_frame, hpayload]
    exact State.bodyStates_token _ P

/-- Settles O44: the changed byte is one half of the header, or one byte of the body, and moves one of the two sums alone. -/
theorem oneChangedByteEndsMismatch : Obligations.OneChangedByteEndsMismatch := by
  intro s k P n c hk hn hc
  rw [packetFrame_eq] at hn hc ⊢
  have hpayload := map_unswizzle_map_swizzle P k
  have hheader := header_append (cksum P)
  match n with
  | 0 =>
    refine (hk.frame_verdict ..).trans (if_neg fun heq => hc ?_)
    rw [hpayload] at heq
    exact congrArg some ((BitVec.append_left_inj _).1 (hheader.trans heq))
  | 1 =>
    refine (hk.frame_verdict ..).trans (if_neg fun heq => hc ?_)
    rw [hpayload] at heq
    exact congrArg some ((BitVec.append_right_inj _).1 (hheader.trans heq))
  | n + 2 =>
    have hlen : n < P.length := by simpa using hn
    refine (hk.frame_verdict ..).trans (if_neg ?_)
    rw [List.map_set, hpayload, hheader]
    refine cksum_set_ne hlen fun heq => hc ?_
    have hwire : swizzle P[n] k = c := by rw [heq, swizzle_unswizzle]
    simp [hlen, hwire]

end Sys2Proof.Machine

/-! SUPPORT. The transmit path: what each operation leaves while a key is loaded, and what a payload leaves byte by byte and at its
end (`44_tx_packer.md` rules R135 to R137, R139). -/

namespace Sys2Proof.Machine

/-- TXOPEN's word is its `OP` alone (rule R135). -/
theorem encode_txopen : encode .txopen = 0x380000000000#48 := by decide

/-- TXCK's word is its `OP` alone (rule R137). -/
theorem encode_txck : encode .txck = 0x3A0000000000#48 := by decide

/-- A 16-bit value as a result of two bytes reads as a frame's header: its halves, high byte first. -/
theorem unpackBytes_two_zext40 (c : Word16) : unpackBytes 2 (zext40 c) = headerBytes c := by
  simp [unpackBytes, resByte, zext40, headerBytes, BitVec.extractLsb'_setWidth_of_le]

theorem State.after_txopen (s : State) : s.after .txopen = s.clearTx.result 0 0 := State.after_of_next (exec_txopen s)

theorem State.after_txck (s : State) : s.after .txck = s.result (zext40 s.txsum) 2 := State.after_of_next (exec_txck s)

@[simp] theorem txStr_cons (p : Byte) (ps : List Byte) : txStr (p :: ps) = .txb p :: txStr ps := rfl

/-- What TXFRAME leaves: the payload's end, with its sum as the result. -/
theorem State.afterAll_txFrame (s : State) (P : List Byte) :
    let e := (s.after .txopen).afterAll (txStr P)
    s.afterAll (txFrame P) = e.result (zext40 e.txsum) 2 :=
  (State.afterAll_append _ _ _).trans (State.after_txck _)

section
variable {s : State} {k : Byte} (hk : s.Keyed k)
include hk

/-- TXB of a keyed state returns the swizzled byte and sums the plain one (rule R136). -/
theorem State.Keyed.after_txb (p : Byte) : s.after (.txb p) = (s.sumTx p).result (zext40 (swizzle p k)) 1 :=
  hk.fwdAt_eq p ▸ State.after_of_next (exec_of_case (.txb p hk.keyv))

theorem State.Keyed.keyed_after_txb (p : Byte) : (s.after (.txb p)).Keyed k :=
  hk.after_txb p ▸ hk.of_eq rfl rfl rfl rfl

theorem State.Keyed.keyed_after_txopen : (s.after .txopen).Keyed k :=
  s.after_txopen ▸ hk.of_eq rfl rfl rfl rfl

/-- The results of a payload's TXB steps are its wire bytes, in order. -/
theorem State.Keyed.trace_txStr_wire (P : List Byte) :
    ((s.trace (txStr P)).map fun t => resByte 0 t.res) = P.map fun p => swizzle p k := by
  induction P generalizing s with
  | nil => rfl
  | cons p ps ih =>
    rw [txStr_cons, State.trace_cons, List.map_cons, ih (hk.keyed_after_txb p), hk.after_txb, State.result_res,
      resByte_zero_zext40, List.map_cons]

/-- A payload's TXB steps add its checksum to the sum. -/
theorem State.Keyed.afterAll_txStr_txsum (P : List Byte) : (s.afterAll (txStr P)).txsum = s.txsum + cksum P := by
  induction P generalizing s with
  | nil => exact (add_zero _).symm
  | cons p ps ih =>
    rw [txStr_cons, State.afterAll_cons, ih (hk.keyed_after_txb p), hk.after_txb, State.result_txsum, State.sumTx_txsum,
      addByte, cksum_cons, add_assoc]

end

/-- The results of a received body are its plain bytes, in order (rule R122). -/
theorem State.bodyStates_res (s : State) (P : List Byte) : ((s.bodyStates P).map fun t => resByte 0 t.res) = P := by
  induction P generalizing s with
  | nil => rfl
  | cons p ps ih => rw [State.bodyStates_cons, List.map_cons, ih, State.bodyByte, State.result_res, resByte_zero_zext40]

end Sys2Proof.Machine

/-! PROOF. TXFRAME and the three transmit operations one by one (`44_tx_packer.md` rules R135 to R137, R139). -/

namespace Sys2Proof.Machine

/-- Settles O48: TXOPEN clears the sum, so TXCK returns the payload's checksum, which with the wire bytes is the packet frame; a
receiver's body states are those of the payload. -/
theorem transmitPathBuildsFrame : Obligations.TransmitPathBuildsFrame := by
  intro s r k P hs hr wire c frame
  have hopen := hs.keyed_after_txopen
  have hwire : wire = P.map (fun p => swizzle p k) := hopen.trace_txStr_wire P
  have hc : c = _ := s.afterAll_txFrame P
  have hsum : c.txsum = cksum P := by
    rw [hc, State.result_txsum, hopen.afterAll_txStr_txsum, s.after_txopen]
    exact zero_add _
  have hres : c.res = zext40 c.txsum := by rw [hc, State.result_res, State.result_txsum]
  have hframe : frame = packetFrame P k := by simp only [frame, hwire, hsum, packetFrame_eq]
  obtain ⟨hmatch, -⟩ := checksummedFrameEndsMatch r k P hr
  refine ⟨hwire, hsum, hc ▸ rfl, ?_, hframe, hframe ▸ hmatch, ?_⟩
  · rw [hres, unpackBytes_two_zext40]
    rfl
  · rw [hframe, packetFrame_eq, hr.trace_frame, map_unswizzle_map_swizzle, State.bodyStates_res]

/-- Settles O45: TXOPEN's one case clears the sum and the result. -/
theorem txopenClearsTransmitSum : Obligations.TxopenClearsTransmitSum :=
  ⟨encode_txopen ▸ decodeOfEncodeIsInstruction .txopen, exec_txopen⟩

/-- Settles O46: TXB is one check of `KEYV`, a read of `FWD` and a sum of its operand. -/
theorem txbReturnsWireByteAndSumsPlain : Obligations.TxbReturnsWireByteAndSumsPlain := by
  refine fun p s => ⟨decodeOfEncodeIsInstruction (.txb p), fun hk => ?_, fun hk => exec_noKey hk rfl, fun m h => h.fwdAt_eq p⟩
  have hmod : BitVec.ofNat 16 ((s.txsum.toNat + p.toNat) % 65536) = addByte s.txsum p :=
    (BitVec.eq_of_toNat_eq (Nat.mod_mod _ _)).trans (addByte_eq_ofNat s.txsum p).symm
  rw [hmod]
  exact exec_of_case (.txb p hk)

/-- Settles O47: TXCK's one case returns the sum extended to 40 bits. -/
theorem txckReturnsChecksumBytes : Obligations.TxckReturnsChecksumBytes :=
  ⟨encode_txck ▸ decodeOfEncodeIsInstruction .txck,
    fun s => ⟨_, exec_txck s, zext40_toNat s.txsum (by decide), unpackBytes_two_zext40 s.txsum⟩⟩

end Sys2Proof.Machine

/-! PROOF. What the receive and the transmit path share (`44_tx_packer.md` rule R138): neither writes the other's registers, and
each operation's cases are the same whatever those registers hold. -/

namespace Sys2Proof.Machine

/-- `s` with the receive path's registers as `r` holds them. -/
def State.withReceive (s r : State) : State :=
  { s with rxm := r.rxm, rxph := r.rxph, ckexp := r.ckexp, rxsum := r.rxsum, clen := r.clen, prevlen := r.prevlen,
           verdict := r.verdict, incmd := r.incmd, soc := r.soc, orph := r.orph, orphs := r.orphs }

/-- `s` with another transmit sum. -/
def State.withTxsum (s : State) (x : Word16) : State := { s with txsum := x }

section
variable {i : Instr} {s t : State} (h : ExecCase s i t)
include h

theorem ExecCase.transmit_frame (hi : isTransmit i = true) :
    t = { s with txsum := t.txsum, res := t.res, rlen := t.rlen, lasterr := t.lasterr, err := t.err } := by
  cases h with
  | txopen | txb | txbNoKey | txck => rfl
  | _ => exact (Bool.false_ne_true hi).elim

/-- No transmit operation looks at a register of the receive path. -/
theorem ExecCase.transmit_withReceive (hi : isTransmit i = true) (r : State) :
    ExecCase (s.withReceive r) i (t.withReceive r) := by
  cases h with
  | txopen => exact .txopen
  | txb p hk => exact .txb p hk
  | txbNoKey p hk => exact .txbNoKey p hk
  | txck => exact .txck
  | _ => exact (Bool.false_ne_true hi).elim

theorem ExecCase.receive_keeps_txsum (hrx : isReceive i = true) : t.txsum = s.txsum := by
  by_contra hne
  rcases h.txsum_writer hne with rfl | ⟨p, rfl⟩
  · exact Bool.false_ne_true hrx
  · exact Bool.false_ne_true hrx

/-- No receive operation looks at the transmit sum. -/
theorem ExecCase.receive_withTxsum (hrx : isReceive i = true) (x : Word16) : ExecCase (s.withTxsum x) i (t.withTxsum x) := by
  cases h with
  | rxopenPlain => exact .rxopenPlain
  | rxopenUnframed hk => exact .rxopenUnframed hk
  | rxopenUnframedNoKey hk => exact .rxopenUnframedNoKey hk
  | rxopenFramed hk => exact .rxopenFramed hk
  | rxopenFramedNoKey hk => exact .rxopenFramedNoKey hk
  | rxopenReserved => exact .rxopenReserved
  | rxbClosed b hp => exact .rxbClosed b hp
  | rxbHdr0 b hp => exact .rxbHdr0 b hp
  | rxbHdr1 b hp => exact .rxbHdr1 b hp
  | rxbStart b hp hs => exact .rxbStart b hp hs
  | rxbCont b hp hs hi => exact .rxbCont b hp hs hi
  | rxbOrphan b hp hs hi => exact .rxbOrphan b hp hs hi
  | rxendClosed hp => exact .rxendClosed hp
  | rxendShort hp => exact .rxendShort hp
  | rxendUnframed hp hm => exact .rxendUnframed hp hm
  | rxendFramed hp hm => exact .rxendFramed hp hm
  | _ => exact (Bool.false_ne_true hrx).elim

end

/-- Settles O49: each path's cases neither write nor look at the other path's registers. -/
theorem receiveAndTransmitPathsAreIndependent : Obligations.ReceiveAndTransmitPathsAreIndependent := by
  refine ⟨fun i s t hi he => (exec_case he).transmit_frame hi, fun i s t x hi he => ?_,
    fun i s t m ph c x l q v n f o u hi he => ?_⟩
  · have hc := exec_case he
    exact ⟨hc.receive_keeps_txsum hi, exec_of_case (hc.receive_withTxsum hi x)⟩
  · exact exec_of_case ((exec_case he).transmit_withReceive hi
      { s with rxm := m, rxph := ph, ckexp := c, rxsum := x, clen := l, prevlen := q, verdict := v, incmd := n, soc := f,
               orph := o, orphs := u })

end Sys2Proof.Machine

/-! PROOF. Taking a fault: what it writes, and which words raise which code (`60_exceptions.md` rules R144, R145). -/

namespace Sys2Proof.Machine

/-- What the table of rule R144 asks, code by code, of the state and of what the word decodes as. -/
def State.raises (s : State) (d : Except Reject Instr) : FaultCode → Prop
  | .illegalOp => (¬ ∃ i, d = .ok i) ∨ d = .ok (.rxopen 3)
  | .noKey => s.keyv = false ∧ ∃ i, d = .ok i ∧
      ((∃ b, i = .swz b) ∨ (∃ c, i = .uswz c) ∨ (∃ p, i = .txb p) ∨ i = .rxopen 1 ∨ i = .rxopen 2)
  | .notOpen => s.rxph = .closed ∧ ∃ i, d = .ok i ∧ ((∃ b, i = .rxb b) ∨ i = .rxend)
  | .range => ∃ v, d = .ok (.enc14 v) ∧ 16383 < v.toNat
  | .badGroup =>
      (∃ g0 g1, d = .ok (.dec14 g0 g1) ∧ (g0.getLsbD 7 = true ∨ g1.getLsbD 7 = true)) ∨
      (∃ g0 g1 g2 g3 g4, (d = .ok (.dec35 g0 g1 g2 g3 g4) ∨ d = .ok (.dec32s g0 g1 g2 g3 g4)) ∧
        (g0.getLsbD 7 = true ∨ g1.getLsbD 7 = true ∨ g2.getLsbD 7 = true ∨ g3.getLsbD 7 = true
          ∨ g4.getLsbD 7 = true))

theorem any_topBit_two_iff (g0 g1 : Byte) :
    [g0, g1].any topBit = true ↔ g0.getLsbD 7 = true ∨ g1.getLsbD 7 = true := by
  simp only [List.any_cons, List.any_nil, Bool.or_false, Bool.or_eq_true, topBit]

theorem any_topBit_five_iff (g0 g1 g2 g3 g4 : Byte) :
    [g0, g1, g2, g3, g4].any topBit = true ↔ g0.getLsbD 7 = true ∨ g1.getLsbD 7 = true ∨ g2.getLsbD 7 = true ∨
      g3.getLsbD 7 = true ∨ g4.getLsbD 7 = true := by
  simp only [List.any_cons, List.any_nil, Bool.or_false, Bool.or_eq_true, topBit]

/-- An operation ends ok, or takes a fault whose row of the table it meets. -/
theorem ExecCase.ok_or_raises {i : Instr} {s t : State} (h : ExecCase s i t) :
    t.lasterr = 0 ∨ ∃ c, t = s.takeFault c ∧ s.raises (.ok i) c := by
  cases h with
  | rxopenReserved => exact .inr ⟨.illegalOp, rfl, .inr rfl⟩
  | swzNoKey b hk => exact .inr ⟨.noKey, rfl, hk, _, rfl, .inl ⟨b, rfl⟩⟩
  | uswzNoKey c hk => exact .inr ⟨.noKey, rfl, hk, _, rfl, .inr (.inl ⟨c, rfl⟩)⟩
  | txbNoKey p hk => exact .inr ⟨.noKey, rfl, hk, _, rfl, .inr (.inr (.inl ⟨p, rfl⟩))⟩
  | rxopenUnframedNoKey hk => exact .inr ⟨.noKey, rfl, hk, _, rfl, .inr (.inr (.inr (.inl rfl)))⟩
  | rxopenFramedNoKey hk => exact .inr ⟨.noKey, rfl, hk, _, rfl, .inr (.inr (.inr (.inr rfl)))⟩
  | rxbClosed b hp => exact .inr ⟨.notOpen, rfl, hp, _, rfl, .inl ⟨b, rfl⟩⟩
  | rxendClosed hp => exact .inr ⟨.notOpen, rfl, hp, _, rfl, .inr rfl⟩
  | enc14Range v hv => exact .inr ⟨.range, rfl, v, rfl, (outOfRange14_iff v).1 hv⟩
  | dec14Bad g0 g1 hg => exact .inr ⟨.badGroup, rfl, .inl ⟨g0, g1, rfl, (any_topBit_two_iff ..).1 hg⟩⟩
  | dec35Bad g0 g1 g2 g3 g4 hg =>
    exact .inr ⟨.badGroup, rfl, .inr ⟨g0, g1, g2, g3, g4, .inl rfl, (any_topBit_five_iff ..).1 hg⟩⟩
  | dec32sBad g0 g1 g2 g3 g4 hg =>
    exact .inr ⟨.badGroup, rfl, .inr ⟨g0, g1, g2, g3, g4, .inr rfl, (any_topBit_five_iff ..).1 hg⟩⟩
  | _ => exact .inl rfl

/-- An operation that meets a row of the table takes that row's fault. -/
theorem exec_of_raises {i : Instr} {s : State} {c : FaultCode} (h : s.raises (.ok i) c) :
    exec i s = .next (s.takeFault c) := by
  cases c with
  | illegalOp =>
    rcases h with hnone | hi
    · exact absurd ⟨i, rfl⟩ hnone
    · cases hi
      exact exec_rxopen_reserved s
  | noKey =>
    obtain ⟨hk, _, ⟨⟩, hi⟩ := h
    refine exec_noKey hk ?_
    rcases hi with ⟨b, rfl⟩ | ⟨c, rfl⟩ | ⟨p, rfl⟩ | rfl | rfl <;> rfl
  | notOpen =>
    obtain ⟨hp, _, ⟨⟩, ⟨b, rfl⟩ | rfl⟩ := h
    · exact exec_rxb_closed b hp
    · exact exec_rxend_closed hp
  | range =>
    obtain ⟨v, ⟨⟩, hv⟩ := h
    exact exec_of_case (.enc14Range v ((outOfRange14_iff v).2 hv))
  | badGroup =>
    rcases h with ⟨g0, g1, ⟨⟩, hg⟩ | ⟨g0, g1, g2, g3, g4, ⟨⟨⟩⟩ | ⟨⟨⟩⟩, hg⟩
    · exact exec_of_case (.dec14Bad g0 g1 ((any_topBit_two_iff ..).2 hg))
    · exact exec_of_case (.dec35Bad g0 g1 g2 g3 g4 ((any_topBit_five_iff ..).2 hg))
    · exact exec_of_case (.dec32sBad g0 g1 g2 g3 g4 ((any_topBit_five_iff ..).2 hg))

/-- A word that spells no operation meets the row of `IllegalOp` alone. -/
theorem State.raises_error_iff {s : State} {r : Reject} {c : FaultCode} : s.raises (.error r) c ↔ c = .illegalOp := by
  cases c <;> simp [State.raises]

section
variable {w : OpWord} {s t : State} (h : stepWord w s = .next t)
include h

/-- A word's step is a case of the operation it spells, or it spells none and the step took `IllegalOp`. -/
theorem stepWord_cases :
    (∃ i, decode w = .ok i ∧ ExecCase s i t) ∨ ∃ r, decode w = .error r ∧ t = s.takeFault .illegalOp := by
  cases hd : decode w with
  | ok i => exact .inl ⟨i, rfl, exec_case ((stepWord_ok s hd).symm.trans h)⟩
  | error r => exact .inr ⟨r, rfl, (Host.Outcome.next.inj ((stepWord_error s hd).symm.trans h)).symm⟩

/-- A word's step ends ok, or took a fault whose row of the table the word meets. -/
theorem stepWord_ok_or_raises : t.lasterr = 0 ∨ ∃ c, t = s.takeFault c ∧ s.raises (decode w) c := by
  rcases stepWord_cases h with ⟨i, hd, hc⟩ | ⟨r, hd, ht⟩
  · exact hd ▸ hc.ok_or_raises
  · exact .inr ⟨.illegalOp, ht, hd ▸ State.raises_error_iff.2 rfl⟩

/-- A word that meets a row of the table took that row's fault. -/
theorem eq_takeFault_of_raises {c : FaultCode} (hr : s.raises (decode w) c) : t = s.takeFault c := by
  rcases stepWord_cases h with ⟨i, hd, hc⟩ | ⟨r, hd, ht⟩
  · exact Host.Outcome.next.inj ((exec_of_case hc).symm.trans (exec_of_raises (hd ▸ hr)))
  · rw [hd, State.raises_error_iff] at hr
    exact hr ▸ ht

/-- A word's step ends with a code exactly when the word meets that code's row of the table (rule R144). -/
theorem stepWord_lasterr_iff_raises (c : FaultCode) : t.lasterr = c.code ↔ s.raises (decode w) c := by
  refine ⟨fun hl => ?_, fun hr => eq_takeFault_of_raises h hr ▸ s.takeFault_lasterr c⟩
  rcases stepWord_ok_or_raises h with hok | ⟨d, rfl, hr⟩
  · exact absurd (hl.symm.trans hok) c.code_ne_zero
  · exact FaultCode.code_inj hl ▸ hr

theorem stepWord_lasterr_le : t.lasterr ≤ 5 := by
  rcases stepWord_ok_or_raises h with hok | ⟨c, rfl, -⟩
  · exact hok ▸ by decide
  · exact c.code_le

/-- A word's step leaves `ERR` alone, clears it (ERRACK), or writes the step's own code to it (rule R32). -/
theorem stepWord_err_le_or_eq : t.err ≤ 5 ∨ t.err = s.err := by
  rcases stepWord_cases h with ⟨i, -, hc⟩ | ⟨r, -, rfl⟩
  · rw [hc.err_eq]
    split_ifs
    exacts [.inl (by decide), .inl (stepWord_lasterr_le h), .inr rfl]
  · rw [State.takeFault_err]
    split_ifs
    exacts [.inl (FaultCode.code_le _), .inr rfl]

end

/-- Settles O9: a step that does not end ok left what taking one fault leaves. -/
theorem faultWritesOnlyFaultRegisters : Obligations.FaultWritesOnlyFaultRegisters := by
  intro w s t h hl
  obtain ⟨c, rfl, -⟩ := (stepWord_ok_or_raises h).resolve_left hl
  exact s.takeFault_eq_faultedWith c

/-- Settles O10: row by row of the table, and no code but the five is ever written. -/
theorem faultCodesAreRaisedExactlyWhen : Obligations.FaultCodesAreRaisedExactlyWhen := fun _ _ _ h =>
  have hrow := stepWord_lasterr_iff_raises h
  ⟨hrow .illegalOp, hrow .noKey, hrow .notOpen, hrow .range, hrow .badGroup, stepWord_lasterr_le h,
    stepWord_err_le_or_eq h⟩

end Sys2Proof.Machine

/-! PROOF. Six words printed in the test vectors (`95_test_vectors.md` V1, V8, V9, V16 to V18): each is its operation's
encoding, so the round trip reads it back. -/

namespace Sys2Proof.Machine

/-- A word that is an instruction's encoding decodes to that instruction. -/
theorem decode_of_encode_eq {i : Instr} {w : OpWord} (h : encode i = w) : decode w = .ok i :=
  h ▸ decodeOfEncodeIsInstruction i

/-- Settles O5: the six words are the encodings of ERRACK, USWZ, ENC32S, DEC32S, RXOPEN and TXB with the operands shown. -/
theorem sampleWordsDecodeAsPrinted : Obligations.SampleWordsDecodeAsPrinted :=
  ⟨decode_of_encode_eq encode_errack, decode_of_encode_eq (by decide), decode_of_encode_eq (by decide),
    decode_of_encode_eq (by decide), decode_of_encode_eq (by decide), decode_of_encode_eq (by decide)⟩

end Sys2Proof.Machine
